-- ==== Sys2Proof/Word.lean ====
section
/-! DEFINITION. The word types of PKC: bytes, the 32-bit host data word, the 48-bit host action record (R6, R10, R87). -/

namespace Sys2Proof

/-- A byte: 8 bits, unsigned (R6). -/
abbrev Byte := BitVec 8

/-- The host's register data word, REG_DATA_W = 32 bits (R5, R10). -/
abbrev HostWord := BitVec 32

/-- A host action written as one number, format HACT (R87). -/
abbrev ActionWord := BitVec 48

end Sys2Proof
end

