-- ==== Sys2Proof/Config.lean ====
section
/-! DEFINITION. What the spec leaves to the implementation. BUF_RESET is the only open parameter a run can show; the
other one, BUS (R5, decision D33), is below the host actions and has no place in the model (log entry 8). -/

namespace Sys2Proof

/-- FREE VALUE (log entries 3 and 4; safe). Parameter BUF_RESET of R5 and R47: the byte that the buffer space holds at
an address which nothing has written since the reset. The first argument counts the external resets so far (each leaves
new unspecified values, R220), the second is the address. It has no body, so nothing can be proved of its values:
"A model must treat each byte as an arbitrary value until the host or an operation has written it" (R47). -/
opaque Config.bufReset : Nat → Nat → Byte

end Sys2Proof
end

