-- ==== Sys2Proof/Syntax.lean ====
section
/-! DEFINITION. What the host can make PKC do: the eight rows of spec/opcode_table.json, and the two forms their
encodings take (the operation word OPW of R80, the host action record HACT of R87). -/

namespace Sys2Proof

/-- One constructor per row of spec/opcode_table.json. The operand types are exactly the operands' ranges (a register
number 0 to 255, an address 0 to 0xFFF, a byte), so no value of this type is ill-formed; what can be ill-formed is an
encoding, see `ActionRecord.wellFormed` and `opWordWellFormed`. -/
inductive Instr where
  /-- CSUM: checksum of a buffer range (R105). -/
  | csum
  /-- VERIFY: test a checksum byte against a buffer range (R106). -/
  | verify
  /-- ENCODE: build the request frame in FB (R131). -/
  | encode
  /-- DECODE: validate the frame in FB and extract the message (R156). -/
  | decode
  /-- `rd REG`: host register read, register number `r` (R170). -/
  | rd (r : BitVec 8)
  /-- `wr REG, v`: host register write (R171); with `r = 0` it dispatches the operation word `v` (R174). -/
  | wr (r : BitVec 8) (v : HostWord)
  /-- `rb a`: host buffer byte read (R172). -/
  | rb (a : BitVec 12)
  /-- `wb a, b`: host buffer byte write (R173). -/
  | wb (a : BitVec 12) (b : Byte)
  deriving DecidableEq, Repr

/-- The four operations a word written to OP can start (R80). -/
inductive Operation where
  | csum
  | verify
  | encode
  | decode
  deriving DecidableEq, Repr

/-- The operation as a row of the opcode table. -/
def Operation.toInstr : Operation → Instr
  | .csum => .csum
  | .verify => .verify
  | .encode => .encode
  | .decode => .decode

/-- The kind field `k` of a host action record (R87). -/
inductive ActionKind where
  | rd
  | wr
  | rb
  | wb
  deriving DecidableEq, Repr

/-- The triple `(k, a, d)` of R87, fields as they stand in the 48-bit number. -/
structure ActionRecord where
  k : BitVec 4
  a : BitVec 12
  d : HostWord
  deriving DecidableEq, Repr

/-- An encoded row of the opcode table: an operation word (format OPW, R80) or a host action (format HACT, R87). -/
inductive Encoded where
  | opWord (w : HostWord)
  | action (w : ActionWord)
  deriving DecidableEq, Repr

/-- Why a number is no encoding of a row of the opcode table. -/
inductive DecodeError where
  /-- A 32-bit word other than 1, 2, 3, 4 (R82). Written to OP it is BAD_OP, see `dispatchOp`. -/
  | reservedOpWord
  /-- Field `k` above 3: R87 defines the kinds 0 to 3 only. -/
  | unknownKind
  /-- Kinds 0 and 1 with `a` above 255: R87 gives register numbers 0 to 255. -/
  | registerNumberRange
  /-- Kinds 0 and 2 with non-zero `d`: R87 gives `d = 0` for reads. -/
  | readDataNotZero
  /-- Kind 3 with `d` above 255: R87 gives the byte for kind 3. -/
  | writeDataNotByte
  deriving DecidableEq, Repr

end Sys2Proof
end

