-- ==== Sys2Proof/WellFormed.lean ====
section
/-! DEFINITION. Which encodings are well-formed: the operation words of R80 and the action records of R87. -/

namespace Sys2Proof

/-- R80: bits 31:8 are zero. -/
def opWordHighBitsZero (w : HostWord) : Bool := w.toNat / 256 == 0

/-- R80: the operation code, bits 7:0, is one of 1, 2, 3, 4. -/
def opWordCodeKnown (w : HostWord) : Bool := decide (1 ≤ w.toNat % 256) && decide (w.toNat % 256 ≤ 4)

/-- A 32-bit word that starts an operation; every other word is reserved (R82). -/
def opWordWellFormed (w : HostWord) : Bool := opWordHighBitsZero w && opWordCodeKnown w

/-- R87: the kind is 0, 1, 2 or 3. -/
def ActionRecord.kindKnown (t : ActionRecord) : Bool := decide (t.k.toNat ≤ 3)

/-- R87: for kinds 0 and 1 the field `a` is a register number, 0 to 255. -/
def ActionRecord.registerInRange (t : ActionRecord) : Bool := decide (t.k.toNat ≤ 1 → t.a.toNat ≤ 255)

/-- R87: `d` is 0 for the reads, kinds 0 and 2. -/
def ActionRecord.readDataZero (t : ActionRecord) : Bool := decide (t.k.toNat = 0 ∨ t.k.toNat = 2 → t.d.toNat = 0)

/-- R87: `d` is a byte for kind 3. -/
def ActionRecord.writeDataByte (t : ActionRecord) : Bool := decide (t.k.toNat = 3 → t.d.toNat ≤ 255)

/-- The record is a host action of R87. -/
def ActionRecord.wellFormed (t : ActionRecord) : Bool :=
  t.kindKnown && t.registerInRange && t.readDataZero && t.writeDataByte

end Sys2Proof
end

