-- ==== Sys2Proof/Decode.lean ====
section
/-! DEFINITION. Reading and writing the encodings: the operation word (R80, R82) and the host action record (R87).
PKC stores no instructions (R30, R53), so an encoding is a number and no byte sequence (log entry 5). -/

namespace Sys2Proof

/-- R80: the operation that the word `w` written to OP encodes; all 32 bits are decoded (R20). -/
def decodeOpWord (w : HostWord) : Except DecodeError Operation :=
  if w = 0x00000001#32 then .ok .csum
  else if w = 0x00000002#32 then .ok .verify
  else if w = 0x00000003#32 then .ok .encode
  else if w = 0x00000004#32 then .ok .decode
  else .error .reservedOpWord

/-- R80: the word of an operation. -/
def encodeOpWord : Operation → HostWord
  | .csum => 0x00000001#32
  | .verify => 0x00000002#32
  | .encode => 0x00000003#32
  | .decode => 0x00000004#32

/-- R87: the fields of `{k[3:0], a[11:0], d[31:0]}`, `k` in bits 47:44, `a` in bits 43:32, `d` in bits 31:0. -/
def ActionRecord.ofWord (w : ActionWord) : ActionRecord :=
  { k := w.extractLsb' 44 4, a := w.extractLsb' 32 12, d := w.extractLsb' 0 32 }

/-- R87: the 48-bit number of a record, the more significant field first. -/
def ActionRecord.toWord (t : ActionRecord) : ActionWord := t.k ++ t.a ++ t.d

/-- R87: kind 0 = `rd`, 1 = `wr`, 2 = `rb`, 3 = `wb`. -/
def ActionKind.ofCode (k : BitVec 4) : Option ActionKind :=
  if k = 0#4 then some .rd
  else if k = 1#4 then some .wr
  else if k = 2#4 then some .rb
  else if k = 3#4 then some .wb
  else none

/-- R87: the code of a kind. -/
def ActionKind.code : ActionKind → BitVec 4
  | .rd => 0#4
  | .wr => 1#4
  | .rb => 2#4
  | .wb => 3#4

/-- R87: the host action of a record, or why it is none. -/
def decodeRecord (t : ActionRecord) : Except DecodeError Instr :=
  match ActionKind.ofCode t.k with
  | none => .error .unknownKind
  | some .rd =>
    if t.a.toNat > 0xFF then .error .registerNumberRange
    else if t.d ≠ 0#32 then .error .readDataNotZero
    else .ok (.rd (t.a.setWidth 8))
  | some .wr =>
    if t.a.toNat > 0xFF then .error .registerNumberRange
    else .ok (.wr (t.a.setWidth 8) t.d)
  | some .rb =>
    if t.d ≠ 0#32 then .error .readDataNotZero
    else .ok (.rb t.a)
  | some .wb =>
    if t.d.toNat > 0xFF then .error .writeDataNotByte
    else .ok (.wb t.a (t.d.setWidth 8))

/-- R87: the host action of a 48-bit number, or why it is none. -/
def decodeAction (w : ActionWord) : Except DecodeError Instr := decodeRecord (ActionRecord.ofWord w)

/-- The instruction of an encoding in either format. -/
def decode : Encoded → Except DecodeError Instr
  | .opWord w => (decodeOpWord w).map Operation.toInstr
  | .action w => decodeAction w

/-- The number of the record `(k, a, d)` (R87). -/
def actionWord (k : ActionKind) (a : BitVec 12) (d : HostWord) : ActionWord :=
  ActionRecord.toWord { k := k.code, a := a, d := d }

/-- The encoding of an instruction: an operation as its word (R80), a host action as its record (R87). -/
def encode : Instr → Encoded
  | .csum => .opWord (encodeOpWord .csum)
  | .verify => .opWord (encodeOpWord .verify)
  | .encode => .opWord (encodeOpWord .encode)
  | .decode => .opWord (encodeOpWord .decode)
  | .rd r => .action (actionWord .rd (r.setWidth 12) 0#32)
  | .wr r v => .action (actionWord .wr (r.setWidth 12) v)
  | .rb a => .action (actionWord .rb a 0#32)
  | .wb a b => .action (actionWord .wb a (b.setWidth 32))

/-- How an encoding reaches PKC: a host action as itself; an operation word as the host's write of it to OP,
`op M` = `wr OP, w` (R86, R88). -/
def Encoded.toAction : Encoded → ActionWord
  | .opWord w => actionWord .wr 0x000#12 w
  | .action w => w

/-- A row's bits as spec/opcode_table.json numbers them: 32 bits are an operation word, 48 bits a host action; no
other width stands in the table. -/
def Encoded.ofTableWord (nbits w : Nat) : Option Encoded :=
  if nbits = 32 ∧ w < 2 ^ 32 then some (.opWord (BitVec.ofNat 32 w))
  else if nbits = 48 ∧ w < 2 ^ 48 then some (.action (BitVec.ofNat 48 w))
  else none

/-- The instruction the decoder reads from a row's bits (`none` where it refuses). -/
def decodeTableWord (nbits w : Nat) : Option Instr :=
  match Encoded.ofTableWord nbits w with
  | none => none
  | some e => (decode e).toOption

end Sys2Proof
end

