-- ==== Sys2Proof/Machine/State.lean ====
section
/-! DEFINITION. The state of PKC: the registers of 10_state.md, the buffer space of 20_memory.md, and three fields of
the model's own (the host's remaining script, the data of the host's latest read, the count of resets). -/

namespace Sys2Proof.Machine

/-- The buffer space (R40, R41): the bytes that the host or an operation has written since the reset, as pairs of
address and byte, addresses strictly rising (`Memory.wf`). An address that is not listed has not been written and reads
as the free value `Config.bufReset` (R47, log entry 3). -/
abbrev Memory := List Host.Cell

/-- What the outside world does to PKC, one event at a time (log entry 1). -/
inductive HostEvent where
  /-- A host action, as its 48-bit number (R86, R87). -/
  | action (w : ActionWord)
  /-- The external reset, "applied at any time between host actions" (R220, log entry 4). -/
  | reset
  deriving DecidableEq, Repr

/-- The data that a host read returns. -/
inductive Reply where
  /-- `rd`: "a 32-bit value returned to the host" (R170). -/
  | word (v : HostWord)
  /-- `rb`: one byte (R172). -/
  | byte (b : Byte)
  deriving DecidableEq, Repr

/-- The complete state of PKC. OP has no field: it "stores nothing" and reads 0 (R20). -/
structure State where
  /-- STATUS, register 0x01 (R21): ERR 2:0, DETAIL 7:3, VOK 8, AUTH_WARN 9. -/
  status : BitVec 10
  /-- FCAP, register 0x02 (R22). -/
  fcap : BitVec 16
  /-- FLEN, register 0x03 (R23). -/
  flen : BitVec 16
  /-- CS_BASE, register 0x04 (R24). -/
  csBase : BitVec 16
  /-- CS_LEN, register 0x05 (R25). -/
  csLen : BitVec 16
  /-- CS_IN, register 0x06 (R26). -/
  csIn : BitVec 8
  /-- CS_OUT, register 0x07 (R27). -/
  csOut : BitVec 8
  /-- TX_NETFN, register 0x08 (R11). -/
  txNetfn : BitVec 8
  /-- TX_CMD, register 0x09 (R12). -/
  txCmd : BitVec 8
  /-- TX_SEQ, register 0x0A (R13). -/
  txSeq : BitVec 32
  /-- TX_PLEN, register 0x0B (R14). -/
  txPlen : BitVec 16
  /-- RX_NETFN, register 0x0C (R15). -/
  rxNetfn : BitVec 6
  /-- RX_CMD, register 0x0D (R16). -/
  rxCmd : BitVec 8
  /-- RX_SEQ, register 0x0E (R17). -/
  rxSeq : BitVec 6
  /-- RX_PLEN, register 0x0F (R18). -/
  rxPlen : BitVec 9
  /-- RX_TLUN, register 0x10 (R19). -/
  rxTlun : BitVec 2
  /-- RX_SLUN, register 0x11 (R19). -/
  rxSlun : BitVec 2
  /-- FB, TXP and RXP: the buffer space (R40, R41). -/
  mem : Memory
  /-- The model's own: what the host will still do, first event first (R86, log entry 1). -/
  script : List HostEvent
  /-- The model's own: the data of the host's latest read, `none` before the first (log entry 2). -/
  reply : Option Reply
  /-- The model's own: the external resets so far, the counter of the free value (log entry 4). -/
  resets : Nat
  deriving DecidableEq, Repr

/-- PKC has no faults: an error is a value in STATUS (R190), and "every host action in every state has a successor"
(93_implementation_defined.md, part 2, treatment 'stuck: none'). So the type has no constructor (log entry 11). -/
inductive Fault where
  deriving DecidableEq, Repr

/-- Why a step is refused. No meaning of an instruction refuses. -/
inductive Refusal where
  /-- Raised by an arm of `exec` whose instruction has no meaning yet; no arm is left. Safe. -/
  | notModelled (mnemonic : String)
  /-- Raised by `step` when the script's next record is none of the four host actions of R87 (log entry 6). Safe: the
  spec gives such a record no meaning, and nothing is claimed of it. -/
  | notAnAction (why : DecodeError)
  deriving DecidableEq, Repr

/-- The state right after the reset (R33, R220): every register 0, no byte of the buffers written, no event to come. -/
def State.reset : State :=
  { status := 0#10, fcap := 0#16, flen := 0#16, csBase := 0#16, csLen := 0#16, csIn := 0#8, csOut := 0#8
    txNetfn := 0#8, txCmd := 0#8, txSeq := 0#32, txPlen := 0#16
    rxNetfn := 0#6, rxCmd := 0#8, rxSeq := 0#6, rxPlen := 0#9, rxTlun := 0#2, rxSlun := 0#2
    mem := [], script := [], reply := none, resets := 0 }

/-- What one action of the machine answers. -/
abbrev Result := Host.Outcome State Fault Refusal

end Sys2Proof.Machine
end

