-- ==== Sys2Proof/Machine/Flags.lean ====
section
/-! DEFINITION. STATUS: the error kinds (R191), the detail codes (R194), the two flags VOK and AUTH_WARN (R29), and the
word they make (R21). -/

namespace Sys2Proof.Machine

/-- The error kinds of R191. `network` and `timeout` are the host's and are never raised by PKC (R192). -/
inductive ErrKind where
  | ok
  | invalidParameter
  | capacity
  | network
  | timeout
  | protocol
  deriving DecidableEq, Repr

/-- R191: the number of an error kind in STATUS.ERR. -/
def ErrKind.code : ErrKind → BitVec 3
  | .ok => 0#3
  | .invalidParameter => 1#3
  | .capacity => 2#3
  | .network => 3#3
  | .timeout => 4#3
  | .protocol => 5#3

/-- The detail codes of R194: which check failed. -/
inductive Detail where
  | noError
  | badOp
  | emptyRange
  | rangeOob
  | netfnRange
  | plenRange
  | plenWire
  | frameCap
  | tooShort
  | badVersion
  | badClass
  | bodyOverrun
  | hdrCsum
  | bodyLenSmall
  | payloadTooLong
  | dataCsum
  deriving DecidableEq, Repr

/-- R194: the number of a detail in STATUS.DETAIL. -/
def Detail.code : Detail → BitVec 5
  | .noError => 0#5
  | .badOp => 1#5
  | .emptyRange => 2#5
  | .rangeOob => 3#5
  | .netfnRange => 4#5
  | .plenRange => 5#5
  | .plenWire => 6#5
  | .frameCap => 7#5
  | .tooShort => 8#5
  | .badVersion => 9#5
  | .badClass => 10#5
  | .bodyOverrun => 11#5
  | .hdrCsum => 12#5
  | .bodyLenSmall => 13#5
  | .payloadTooLong => 14#5
  | .dataCsum => 15#5

/-- R21, R194: `STATUS = ERR | DETAIL << 3 | VOK << 8 | AUTH_WARN << 9`. -/
def statusWord (k : ErrKind) (d : Detail) (vok warn : Bool) : BitVec 10 :=
  BitVec.ofBool warn ++ BitVec.ofBool vok ++ d.code ++ k.code

/-- STATUS.ERR, bits 2:0 (R21). -/
def statusErr (st : BitVec 10) : BitVec 3 := st.extractLsb' 0 3

/-- STATUS.DETAIL, bits 7:3 (R21). -/
def statusDetail (st : BitVec 10) : BitVec 5 := st.extractLsb' 3 5

/-- STATUS.VOK, bit 8 (R21, R29). -/
def statusVok (st : BitVec 10) : Bool := st.getLsbD 8

/-- STATUS.AUTH_WARN, bit 9 (R21, R29). -/
def statusAuthWarn (st : BitVec 10) : Bool := st.getLsbD 9

end Sys2Proof.Machine
end

