-- ==== Sys2Proof/Machine/Ops.lean ====
section
/-! DEFINITION. The named operations over the buffer space and the registers, how an operation ends (`raise`, `finish`),
and the host's events (taking the next one, the external reset). -/

namespace Sys2Proof.Machine

/-! ## The buffer space (20_memory.md) -/

/-- R40: the buffer space has addresses 0x000 to 0x3FF. -/
def bufSize : Nat := 1024

/-- R41: FB starts at 0x000. -/
def fbBase : Nat := 0x000

/-- R41: FB holds 512 bytes. -/
def fbSize : Nat := 512

/-- R41: TXP starts at 0x200. -/
def txpBase : Nat := 0x200

/-- R41: RXP starts at 0x300. -/
def rxpBase : Nat := 0x300

/-- The byte that has been written at an address since the reset, if one has. -/
def Memory.lookup : Memory → Nat → Option Byte
  | [], _ => none
  | (x, y) :: m, a => if a = x then some y else Memory.lookup m a

/-- Stores a byte, keeping the addresses strictly rising. -/
def Memory.write : Memory → Nat → Byte → Memory
  | [], a, b => [(a, b)]
  | (x, y) :: m, a, b =>
    if a < x then (a, b) :: (x, y) :: m
    else if a = x then (a, b) :: m
    else (x, y) :: Memory.write m a b

/-- Stores bytes at rising addresses, the first at `a`. -/
def Memory.writeList : Memory → Nat → List Byte → Memory
  | m, _, [] => m
  | m, a, b :: bs => Memory.writeList (Memory.write m a b) (a + 1) bs

/-- The addresses of the list rise strictly. -/
def Memory.rising : Memory → Bool
  | [] => true
  | [_] => true
  | (x, _) :: (y, c) :: m => decide (x < y) && Memory.rising ((y, c) :: m)

/-- The canonical form of the buffer space: addresses strictly rising and inside 0x000 to 0x3FF (R40). An unlisted
address holds no written byte, so no entry can equal what an unlisted address holds (log entry 3). -/
def Memory.wf (m : Memory) : Bool := Memory.rising m && m.all fun c => decide (c.1 < bufSize)

/-- `MemRead(a, 1)` (R7): the written byte, else the free value of BUF_RESET (R47, log entry 3). -/
def State.readByte (s : State) (a : Nat) : Byte := (Memory.lookup s.mem a).getD (Config.bufReset s.resets a)

/-- The `n` bytes from address `a` on. -/
def State.readBytes (s : State) (a n : Nat) : List Byte := (List.range n).map fun i => s.readByte (a + i)

/-- `MemWrite(a, 1, b)` (R7). -/
def State.writeByte (s : State) (a : Nat) (b : Byte) : State := { s with mem := Memory.write s.mem a b }

/-- `MemWrite` at rising addresses, the first byte at `a`. -/
def State.writeBytes (s : State) (a : Nat) (bs : List Byte) : State := { s with mem := Memory.writeList s.mem a bs }

/-- `FB[i]` (R7, R41). -/
def State.fb (s : State) (i : Nat) : Byte := s.readByte (fbBase + i)

/-- `TXP[i]` (R7, R41). -/
def State.txp (s : State) (i : Nat) : Byte := s.readByte (txpBase + i)

/-- `RXP[i]` (R7, R41). -/
def State.rxp (s : State) (i : Nat) : Byte := s.readByte (rxpBase + i)

/-- `FB[i..j)` (R6, R7): empty when `i >= j`. -/
def State.fbRange (s : State) (i j : Nat) : List Byte := s.readBytes (fbBase + i) (j - i)

/-! ## Register updates by the block and the data of a read -/

/-- The block writes STATUS; all ten bits are overwritten (R21). -/
def State.setStatus (s : State) (st : BitVec 10) : State := { s with status := st }

/-- CSUM writes CS_OUT (R27). -/
def State.setCsOut (s : State) (b : Byte) : State := { s with csOut := b }

/-- ENCODE writes FLEN, of implemented width 16 (R7, R23). -/
def State.setFlen (s : State) (n : Nat) : State := { s with flen := BitVec.ofNat 16 n }

/-- DECODE writes the six RX registers (R155); RX_PLEN has implemented width 9 (R18). -/
def State.setMessage (s : State) (netfn : BitVec 6) (cmd : Byte) (seq : BitVec 6) (n : Nat) (tlun slun : BitVec 2) :
    State :=
  { s with rxNetfn := netfn, rxCmd := cmd, rxSeq := seq, rxPlen := BitVec.ofNat 9 n, rxTlun := tlun, rxSlun := slun }

/-- A host read returns its data (R170, R172; log entry 2). -/
def State.setReply (s : State) (r : Reply) : State := { s with reply := some r }

/-! ## How an operation ends (60_exceptions.md) -/

/-- `raise K(D)` (R196), the block's only "trap entry": one write,
`STATUS <- {AUTH_WARN = w, VOK = 0, DETAIL = D, ERR = K}`. Nothing is saved and control goes nowhere; there is no return
operation (R200), the next host action is accepted at once. -/
def raise (k : ErrKind) (d : Detail) (warn : Bool) (s : State) : Result :=
  .next (s.setStatus (statusWord k d false warn))

/-- An operation that passed all its checks ends with ERR = OK and DETAIL = 0 (R190, R194). -/
def finish (vok warn : Bool) (s : State) : Result := .next (s.setStatus (statusWord .ok .noError vok warn))

/-! ## The host's events -/

/-- The script's next event and the state without it (R86: actions run in order). -/
def State.takeEvent (s : State) : Option (HostEvent × State) :=
  match s.script with
  | [] => none
  | e :: rest => some (e, { s with script := rest })

/-- The external reset (R220): every register 0, every byte of the buffers unspecified again. The host's script and the
data it has read are not the block's and stay (log entry 4). -/
def State.applyReset (s : State) : State :=
  { State.reset with script := s.script, reply := s.reply, resets := s.resets + 1 }

/-- The host will do `w` next. -/
def State.pushAction (s : State) (w : ActionWord) : State := { s with script := .action w :: s.script }

end Sys2Proof.Machine
end

