-- ==== Sys2Proof/Machine/Operands.lean ====
section
/-! DEFINITION. The operand forms: the register space by number (R10), the checksum functions (R100, R101), the packed
fields (R70 to R72), the checksum range (R104), and the constants of the wire frame (R74). -/

namespace Sys2Proof.Machine

/-! ## The register space (10_state.md) -/

/-- The implemented registers of R10. -/
inductive Reg where
  | op
  | status
  | fcap
  | flen
  | csBase
  | csLen
  | csIn
  | csOut
  | txNetfn
  | txCmd
  | txSeq
  | txPlen
  | rxNetfn
  | rxCmd
  | rxSeq
  | rxPlen
  | rxTlun
  | rxSlun
  deriving DecidableEq, Repr

/-- R10: the register of a number; `none` for the reserved numbers 0x12 to 0xFF (R28). -/
def Reg.ofNumber (r : BitVec 8) : Option Reg :=
  match r.toNat with
  | 0x00 => some .op
  | 0x01 => some .status
  | 0x02 => some .fcap
  | 0x03 => some .flen
  | 0x04 => some .csBase
  | 0x05 => some .csLen
  | 0x06 => some .csIn
  | 0x07 => some .csOut
  | 0x08 => some .txNetfn
  | 0x09 => some .txCmd
  | 0x0A => some .txSeq
  | 0x0B => some .txPlen
  | 0x0C => some .rxNetfn
  | 0x0D => some .rxCmd
  | 0x0E => some .rxSeq
  | 0x0F => some .rxPlen
  | 0x10 => some .rxTlun
  | 0x11 => some .rxSlun
  | _ => none

/-- R170: the stored value zero-extended to 32 bits; OP reads as 0 (R20). -/
def State.readReg (s : State) : Reg → HostWord
  | .op => 0#32
  | .status => s.status.setWidth 32
  | .fcap => s.fcap.setWidth 32
  | .flen => s.flen.setWidth 32
  | .csBase => s.csBase.setWidth 32
  | .csLen => s.csLen.setWidth 32
  | .csIn => s.csIn.setWidth 32
  | .csOut => s.csOut.setWidth 32
  | .txNetfn => s.txNetfn.setWidth 32
  | .txCmd => s.txCmd.setWidth 32
  | .txSeq => s.txSeq
  | .txPlen => s.txPlen.setWidth 32
  | .rxNetfn => s.rxNetfn.setWidth 32
  | .rxCmd => s.rxCmd.setWidth 32
  | .rxSeq => s.rxSeq.setWidth 32
  | .rxPlen => s.rxPlen.setWidth 32
  | .rxTlun => s.rxTlun.setWidth 32
  | .rxSlun => s.rxSlun.setWidth 32

/-- R171: a read-write register keeps the low W bits of `v`; a write to a read-only register changes nothing. OP stores
nothing (R20); what a write to it starts is `dispatchOp`. -/
def State.writeReg (s : State) (reg : Reg) (v : HostWord) : State :=
  match reg with
  | .fcap => { s with fcap := v.setWidth 16 }
  | .flen => { s with flen := v.setWidth 16 }
  | .csBase => { s with csBase := v.setWidth 16 }
  | .csLen => { s with csLen := v.setWidth 16 }
  | .csIn => { s with csIn := v.setWidth 8 }
  | .txNetfn => { s with txNetfn := v.setWidth 8 }
  | .txCmd => { s with txCmd := v.setWidth 8 }
  | .txSeq => { s with txSeq := v }
  | .txPlen => { s with txPlen := v.setWidth 16 }
  | .op | .status | .csOut | .rxNetfn | .rxCmd | .rxSeq | .rxPlen | .rxTlun | .rxSlun => s

/-! ## The checksum functions (40_checksum.md) -/

/-- `sum(s)` (R6): the sum of the bytes as unbounded natural numbers. -/
def byteSum (bs : List Byte) : Nat := (bs.map BitVec.toNat).sum

/-- `csum8(s)` (R100): `(256 - (sum(s) mod 256)) mod 256`. -/
def csum8 (bs : List Byte) : Byte := BitVec.ofNat 8 ((256 - byteSum bs % 256) % 256)

/-- `vsum8(s, c)` (R101): `(sum(s) + c) mod 256 == 0`. -/
def vsum8 (bs : List Byte) (c : Byte) : Bool := decide ((byteSum bs + c.toNat) % 256 = 0)

/-! ## Packed fields (30_encoding.md, section 2) -/

/-- `pack62(h, l)` (R70): `(h << 2) | l`. -/
def pack62 (h : BitVec 6) (l : BitVec 2) : Byte := (h.setWidth 8 <<< 2) ||| l.setWidth 8

/-- `hi6(b)` (R71): `b[7:2]`. -/
def hi6 (b : Byte) : BitVec 6 := b.extractLsb' 2 6

/-- `lo2(b)` (R72): `b[1:0]`. -/
def lo2 (b : Byte) : BitVec 2 := b.extractLsb' 0 2

/-! ## The range of CSUM and VERIFY (R103, R104) -/

/-- The check that CSUM and VERIFY make: empty first (R103), then the bound on natural numbers (R104). -/
def State.csRangeError (s : State) : Option Detail :=
  if s.csLen.toNat = 0 then some .emptyRange
  else if s.csBase.toNat + s.csLen.toNat > bufSize then some .rangeOob
  else none

/-- The bytes that CSUM and VERIFY sum (R104). -/
def State.csRange (s : State) : List Byte := s.readBytes s.csBase.toNat s.csLen.toNat

/-! ## The constants of the frame (R74) -/

/-- RMCP_VERSION (R61, R74). -/
def rmcpVersion : Byte := 0x06#8

/-- RMCP_RESERVED (R61, R74). -/
def rmcpReserved : Byte := 0x00#8

/-- RMCP_SEQ_NOACK (R61, R74). -/
def rmcpSeqNoAck : Byte := 0xFF#8

/-- RMCP_CLASS_IPMI (R61, R74). -/
def rmcpClassIpmi : Byte := 0x07#8

/-- AUTH_NONE (R62, R74). -/
def authNone : Byte := 0x00#8

/-- BMC_ADDR (R64, R74). -/
def bmcAddr : Byte := 0x20#8

/-- SWID_ADDR (R67, R74). -/
def swidAddr : Byte := 0x81#8

/-- TX_LUN (R65, R68, R74): ENCODE always writes LUN 0. -/
def txLun : BitVec 2 := 0#2

/-- MSG_HDR_LEN 6 and one checksum byte: BODY_OVERHEAD (R63, R74). -/
def bodyOverhead : Nat := 7

/-- FRAME_OVERHEAD (R5, R74). -/
def frameOverhead : Nat := 21

/-- FRAME_MIN_DECODE (R5, R142). -/
def frameMinDecode : Nat := 20

/-- PAYLOAD_CAP (R5). -/
def payloadCap : Nat := 256

/-- PAYLOAD_WIRE_MAX (R5, R122). -/
def payloadWireMax : Nat := 248

end Sys2Proof.Machine
end

