-- ==== Sys2Proof/Machine/Checksum.lean ====
section
/-! DEFINITION. The checksummer engine: CSUM and VERIFY (40_checksum.md). -/

namespace Sys2Proof.Machine

/-- CSUM (R105). -/
def execCsum (s : State) : Result :=
  match s.csRangeError with
  | some d => raise .invalidParameter d false s
  | none => finish false false (s.setCsOut (csum8 s.csRange))

/-- VERIFY (R106): a checksum that does not verify is no error; VOK is the result. -/
def execVerify (s : State) : Result :=
  match s.csRangeError with
  | some d => raise .invalidParameter d false s
  | none => finish (vsum8 s.csRange s.csIn) false s

end Sys2Proof.Machine
end

