-- ==== Sys2Proof/Machine/FrameDecode.lean ====
section
/-! DEFINITION. Frame parsing and validation: DECODE (42_decode.md). -/

namespace Sys2Proof.Machine

/-- Step 3 (R146): `warn = (FB[4] != 0x00)`. -/
def State.authWarn (s : State) : Bool := decide (s.fb 4 ≠ authNone)

/-- `L = FB[13]`, the message body length (R63, R147). -/
def State.bodyLen (s : State) : Nat := (s.fb 13).toNat

/-- The payload length `n = L - 7` (R151). -/
def State.rxPayloadLen (s : State) : Nat := s.bodyLen - bodyOverhead

/-- Steps 0 to 2, before the authentication type is looked at (R141 to R144): the failures with AUTH_WARN = 0. -/
def State.decodeEarlyError (s : State) : Option (ErrKind × Detail) :=
  if s.flen.toNat > fbSize then some (.invalidParameter, .rangeOob)
  else if s.flen.toNat < frameMinDecode then some (.protocol, .tooShort)
  else if s.fb 0 ≠ rmcpVersion then some (.protocol, .badVersion)
  else if s.fb 3 ≠ rmcpClassIpmi then some (.protocol, .badClass)
  else none

/-- Steps 4, 5, 7 and 9 (R147, R148, R150, R151, R153): the failures with AUTH_WARN = warn. The test of step 7's second
half can never fail, since L is one byte (R151); the spec keeps it and so does the model. -/
def State.decodeLateError (s : State) : Option (ErrKind × Detail) :=
  if 14 + s.bodyLen > s.flen.toNat then some (.protocol, .bodyOverrun)
  else if ((s.fb 14).toNat + (s.fb 15).toNat + (s.fb 16).toNat) % 256 ≠ 0 then some (.protocol, .hdrCsum)
  else if s.bodyLen < bodyOverhead then some (.protocol, .bodyLenSmall)
  else if s.rxPayloadLen > payloadCap then some (.protocol, .payloadTooLong)
  else if byteSum (s.fbRange 17 (14 + s.bodyLen)) % 256 ≠ 0 then some (.protocol, .dataCsum)
  else none

/-- The commit (R149, R152, R155): the six RX registers and `RXP[0..n)`. -/
def State.commitMessage (s : State) : State :=
  (s.setMessage (hi6 (s.fb 15)) (s.fb 19) (hi6 (s.fb 18)) s.rxPayloadLen (lo2 (s.fb 15)) (lo2 (s.fb 18))).writeBytes
    rxpBase (s.fbRange 20 (20 + s.rxPayloadLen))

/-- DECODE (R156): validation fails fast in order; only a frame that passes every step is committed (R155). -/
def execDecode (s : State) : Result :=
  match s.decodeEarlyError with
  | some (k, d) => raise k d false s
  | none =>
    match s.decodeLateError with
    | some (k, d) => raise k d s.authWarn s
    | none => finish false s.authWarn s.commitMessage

end Sys2Proof.Machine
end

