-- ==== Sys2Proof/Machine/FrameEncode.lean ====
section
/-! DEFINITION. Frame assembly: ENCODE (41_encode.md). -/

namespace Sys2Proof.Machine

/-- ENCODE's checks in their fixed order (R121, R122, R124; R123). -/
def State.encodeError (s : State) : Option (ErrKind × Detail) :=
  if s.txNetfn.toNat > 63 then some (.invalidParameter, .netfnRange)
  else if s.txPlen.toNat > payloadCap then some (.invalidParameter, .plenRange)
  else if s.txPlen.toNat > payloadWireMax then some (.invalidParameter, .plenWire)
  else if s.fcap.toNat < frameOverhead + s.txPlen.toNat then some (.capacity, .frameCap)
  else none

/-- The 13 bytes that depend on no input: RMCP header and session header (R125, R61, R62). -/
def fixedHeader : List Byte :=
  [rmcpVersion, rmcpReserved, rmcpSeqNoAck, rmcpClassIpmi, authNone, 0, 0, 0, 0, 0, 0, 0, 0]

/-- The two bytes under the header checksum: target address, target NetFn+LUN (R126). -/
def targetBytes (netfn : BitVec 6) : List Byte := [bmcAddr, pack62 netfn txLun]

/-- The bytes under the data checksum: source address, source Seq+LUN, command, payload (R127, R128, R129). -/
def dataBytes (seq : BitVec 6) (cmd : Byte) (payload : List Byte) : List Byte :=
  [swidAddr, pack62 seq txLun, cmd] ++ payload

/-- The whole frame of R60: offsets 0 to 12, the length byte, the message header, the payload, the data checksum. -/
def buildFrame (netfn seq : BitVec 6) (cmd : Byte) (payload : List Byte) : List Byte :=
  fixedHeader ++ [BitVec.ofNat 8 (bodyOverhead + payload.length)]
    ++ targetBytes netfn ++ [csum8 (targetBytes netfn)]
    ++ dataBytes seq cmd payload ++ [csum8 (dataBytes seq cmd payload)]

/-- The frame of the transmit message: NetFn's and the sequence value's low six bits, `TXP[0..n)` (R126 to R128). -/
def State.txFrame (s : State) : List Byte :=
  buildFrame (s.txNetfn.setWidth 6) (s.txSeq.setWidth 6) s.txCmd (s.readBytes txpBase s.txPlen.toNat)

/-- ENCODE (R131): all checks before the first write (R123), then FB, FLEN and STATUS. The frame is made from the state
before the write and stored as one update, since an operation is atomic and its reads see the state before it (R50,
log entry 10). -/
def execEncode (s : State) : Result :=
  match s.encodeError with
  | some (k, d) => raise k d false s
  | none => finish false false ((s.writeBytes fbBase s.txFrame).setFlen (frameOverhead + s.txPlen.toNat))

end Sys2Proof.Machine
end

