-- ==== Sys2Proof/Machine/HostAccess.lean ====
section
/-! DEFINITION. The host actions rd, wr, rb, wb and the dispatch of a word written to OP (43_host_access.md). -/

namespace Sys2Proof.Machine

/-- `dispatch(w)` (R174): the operation of the word, or BAD_OP for a reserved word (R82). -/
def dispatchOp (w : HostWord) (s : State) : Result :=
  match decodeOpWord w with
  | .ok .csum => execCsum s
  | .ok .verify => execVerify s
  | .ok .encode => execEncode s
  | .ok .decode => execDecode s
  | .error _ => raise .invalidParameter .badOp false s

/-- `rd REG` (R170): OP and the reserved numbers read 0 (R20, R28); no side effect but the data returned. -/
def execRd (r : BitVec 8) (s : State) : Result :=
  match Reg.ofNumber r with
  | some reg => .next (s.setReply (.word (s.readReg reg)))
  | none => .next (s.setReply (.word 0#32))

/-- `wr REG, v` (R171): OP dispatches, a reserved number changes nothing (R28). -/
def execWr (r : BitVec 8) (v : HostWord) (s : State) : Result :=
  match Reg.ofNumber r with
  | some .op => dispatchOp v s
  | some reg => .next (s.writeReg reg v)
  | none => .next s

/-- `rb a` (R172): an address above 0x3FF reads 0. -/
def execRb (a : BitVec 12) (s : State) : Result :=
  if a.toNat ≤ 0x3FF then .next (s.setReply (.byte (s.readByte a.toNat)))
  else .next (s.setReply (.byte 0#8))

/-- `wb a, b` (R173): an address above 0x3FF writes nothing. -/
def execWb (a : BitVec 12) (b : Byte) (s : State) : Result :=
  if a.toNat ≤ 0x3FF then .next (s.writeByte a.toNat b)
  else .next s

end Sys2Proof.Machine
end

