-- ==== Sys2Proof/Machine/Step.lean ====
section
/-! DEFINITION. One step: the host's next event. PKC fetches nothing (R30, R53); what it does next is decided by the
host alone (log entry 1). -/

namespace Sys2Proof.Machine

/-- What a host action's 48-bit number does; a number that is no host action is refused (log entry 6). -/
def runAction (w : ActionWord) (s : State) : Result :=
  match decodeAction w with
  | .ok i => exec i s
  | .error why => .refused (.notAnAction why)

/-- One step. Without an event the block "is idle and holds its state" (R205). -/
def step (s : State) : Host.Outcome State Fault Refusal :=
  match s.takeEvent with
  | none => .next s
  | some (.reset, t) => .next t.applyReset
  | some (.action w, t) => runAction w t

/-- `s` with a row's bits as the host's next action: a host action as itself, an operation word `w` as `wr OP, w`
(R20, R88; log entry 5). A number that no row's width admits changes nothing. -/
def State.withFetchWord (s : State) (nbits w : Nat) : State :=
  match Encoded.ofTableWord nbits w with
  | some e => s.pushAction e.toAction
  | none => s

end Sys2Proof.Machine
end

