-- ==== Sys2Proof/Safety.lean ====
section
/-! DEFINITION. What a reachable state of PKC looks like, in the terms the statements use. -/

namespace Sys2Proof.Machine

/-- The values that STATUS can hold (R194's column of values, with VOK and with AUTH_WARN where R21, R29 and R146 allow
them). ERR is never 3, 4, 6, 7 (R191, R192) and DETAIL never 14 or above 15 (R151, R194). -/
def legalStatusValues : List (BitVec 10) :=
  [0x000#10, 0x100#10, 0x200#10, 0x009#10, 0x011#10, 0x019#10, 0x021#10, 0x029#10, 0x031#10, 0x03A#10, 0x045#10,
   0x04D#10, 0x055#10, 0x05D#10, 0x25D#10, 0x065#10, 0x265#10, 0x06D#10, 0x26D#10, 0x07D#10, 0x27D#10]

/-- STATUS holds one of them. -/
abbrev legalStatus (st : BitVec 10) : Prop := st ∈ legalStatusValues

/-- The invariant: the buffer space keeps its canonical form inside 0x000 to 0x3FF (R40, R45), RX_PLEN is at most 248
(R18, R32), STATUS holds a value of R194. -/
abbrev State.Inv (s : State) : Prop := Memory.wf s.mem = true ∧ s.rxPlen.toNat ≤ 248 ∧ legalStatus s.status

end Sys2Proof.Machine
end

