-- ==== Sys2Proof/Certificates/Slice0/Obligations.lean ====
section
/-! DEFINITION. The statements for the provers, in the order of the spec's files. Where a statement says
`exec i s = .next { s with … }`, everything that is not named there is unchanged: that equation is the instruction's
frame. Where memory changes, `mem := t.mem` stands in it and every byte of the buffer space is then described through
`readByte`. -/

open Sys2Proof Sys2Proof.Machine

/-! ## Encodings (30_encoding.md, opcode_table.json) -/

/-- Decoding what the encoder writes gives the instruction back, every operand at every value (R80, R87). -/
def Obligations.DecodeInvertsEncode : Prop := ∀ i : Instr, decode (encode i) = .ok i

/-- Encoding what the decoder read gives the same bits back: no bit of a word or record is ignored (R80, R87). -/
def Obligations.EncodeInvertsDecode : Prop := ∀ (e : Encoded) (i : Instr), decode e = .ok i → encode i = e

/-- R87: a 48-bit number is a host action exactly when `k` (bits 47:44) is at most 3, `a` (bits 43:32) is a register
number 0 to 255 for the kinds 0 and 1, and `d` (bits 31:0) is 0 for the reads and a byte for kind 3. -/
def Obligations.ActionRecordsAcceptedAreThoseOfTheSpec : Prop :=
  ∀ w : ActionWord,
    (∃ i, decodeAction w = .ok i) ↔
      (w.toNat / 2 ^ 44 ≤ 3 ∧ (w.toNat / 2 ^ 44 ≤ 1 → w.toNat / 2 ^ 32 % 2 ^ 12 ≤ 255)
        ∧ (w.toNat / 2 ^ 44 = 0 ∨ w.toNat / 2 ^ 44 = 2 → w.toNat % 2 ^ 32 = 0)
        ∧ (w.toNat / 2 ^ 44 = 3 → w.toNat % 2 ^ 32 ≤ 255))

/-- R87: the number of `(k, a, d)` is `k * 2^44 + a * 2^32 + d`, read as `rd`, `wr`, `rb`, `wb` for `k` = 0, 1, 2, 3. -/
def Obligations.ActionRecordFieldsAreReadWhereTheyStand : Prop :=
  (∀ r : BitVec 8, decodeAction (BitVec.ofNat 48 (0 * 2 ^ 44 + r.toNat * 2 ^ 32)) = .ok (.rd r))
  ∧ (∀ (r : BitVec 8) (v : HostWord),
      decodeAction (BitVec.ofNat 48 (1 * 2 ^ 44 + r.toNat * 2 ^ 32 + v.toNat)) = .ok (.wr r v))
  ∧ (∀ a : BitVec 12, decodeAction (BitVec.ofNat 48 (2 * 2 ^ 44 + a.toNat * 2 ^ 32)) = .ok (.rb a))
  ∧ (∀ (a : BitVec 12) (b : Byte),
      decodeAction (BitVec.ofNat 48 (3 * 2 ^ 44 + a.toNat * 2 ^ 32 + b.toNat)) = .ok (.wb a b))

/-- R80: of all 32-bit words exactly 1, 2, 3 and 4 are operations. -/
def Obligations.OperationWordsAreOneToFour : Prop :=
  ∀ w : HostWord,
    decodeOpWord w = (if w.toNat = 1 then .ok .csum else if w.toNat = 2 then .ok .verify
      else if w.toNat = 3 then .ok .encode else if w.toNat = 4 then .ok .decode else .error .reservedOpWord)

/-- Words written out from R80 and R87 (the examples of R87 and of vector T9). -/
def Obligations.WordsWrittenFromTheSpecDecode : Prop :=
  decodeTableWord 32 0x00000001 = some .csum ∧ decodeTableWord 32 0x00000002 = some .verify
  ∧ decodeTableWord 32 0x00000003 = some .encode ∧ decodeTableWord 32 0x00000004 = some .decode
  ∧ decodeTableWord 48 0x000100000000 = some (.rd 0x01)
  ∧ decodeTableWord 48 0x100800000006 = some (.wr 0x08 0x00000006)
  ∧ decodeTableWord 48 0x1012DEADBEEF = some (.wr 0x12 0xDEADBEEF)
  ∧ decodeTableWord 48 0x201000000000 = some (.rb 0x010)
  ∧ decodeTableWord 48 0x3200000000AB = some (.wb 0x200 0xAB)

/-- R70, R71, R72: packing is `4 * h + l`, and the two extractions undo it in both directions. -/
def Obligations.PackedFieldsComeApart : Prop :=
  (∀ (h : BitVec 6) (l : BitVec 2),
    (pack62 h l).toNat = 4 * h.toNat + l.toNat ∧ hi6 (pack62 h l) = h ∧ lo2 (pack62 h l) = l)
  ∧ ∀ b : Byte, (hi6 b).toNat = b.toNat / 4 ∧ (lo2 b).toNat = b.toNat % 4 ∧ pack62 (hi6 b) (lo2 b) = b

/-! ## Reset and the host's events (70_reset_and_hazards.md, 30_encoding.md) -/

/-- R33: after reset every implemented register holds 0. -/
def Obligations.ResetLeavesEveryRegisterZero : Prop :=
  State.reset.status = 0 ∧ statusErr State.reset.status = 0 ∧ statusDetail State.reset.status = 0
  ∧ statusVok State.reset.status = false ∧ statusAuthWarn State.reset.status = false
  ∧ State.reset.fcap = 0 ∧ State.reset.flen = 0 ∧ State.reset.csBase = 0 ∧ State.reset.csLen = 0
  ∧ State.reset.csIn = 0 ∧ State.reset.csOut = 0 ∧ State.reset.txNetfn = 0 ∧ State.reset.txCmd = 0
  ∧ State.reset.txSeq = 0 ∧ State.reset.txPlen = 0 ∧ State.reset.rxNetfn = 0 ∧ State.reset.rxCmd = 0
  ∧ State.reset.rxSeq = 0 ∧ State.reset.rxPlen = 0 ∧ State.reset.rxTlun = 0 ∧ State.reset.rxSlun = 0

/-- R220, R33, R47: the external reset, from any state, leaves every register 0 and every byte of the buffers at the
free value of BUF_RESET. THE MODEL'S CHOICE (log entries 1, 2, 4): it is an event of the script, a fresh free value
belongs to each reset, and the host's script and the data it has read stay. -/
def Obligations.ExternalResetStartsOver : Prop :=
  ∀ (s : State) (rest : List HostEvent), s.script = .reset :: rest →
    step s = .next { State.reset with script := rest, reply := s.reply, resets := s.resets + 1 }
    ∧ ∀ (t : State), step s = .next t → ∀ a, t.readByte a = Config.bufReset (s.resets + 1) a

/-- R221: right after reset CSUM and VERIFY fail with EMPTY_RANGE, ENCODE with FRAME_CAP, DECODE with TOO_SHORT, and
nothing but STATUS changes. -/
def Obligations.OperationsRightAfterResetFailCleanly : Prop :=
  exec .csum State.reset = .next { State.reset with status := 0x011 }
  ∧ exec .verify State.reset = .next { State.reset with status := 0x011 }
  ∧ exec .encode State.reset = .next { State.reset with status := 0x03A }
  ∧ exec .decode State.reset = .next { State.reset with status := 0x045 }

/-- R86: a step runs the script's next host action, and only moves past it. THE MODEL'S CHOICE (log entry 1): the script
stands in the state. -/
def Obligations.StepRunsTheNextHostAction : Prop :=
  ∀ (s : State) (w : ActionWord) (rest : List HostEvent) (i : Instr),
    s.script = .action w :: rest → decodeAction w = .ok i → step s = exec i { s with script := rest }

/-- R20, R80, R88: the host action `wr OP, w` with an operation's word runs that operation (log entry 5). -/
def Obligations.StepRunsTheOperationWrittenToOp : Prop :=
  ∀ (s : State) (rest : List HostEvent) (o : Operation),
    s.script = .action (Encoded.toAction (.opWord (encodeOpWord o))) :: rest →
      step s = exec o.toInstr { s with script := rest }

/-- R205: without an event the block is idle and holds its state. THE MODEL'S CHOICE (log entry 6): a record that is no
host action is refused by name. -/
def Obligations.StepIdlesOrRefusesWithoutAnAction : Prop :=
  (∀ s : State, s.script = [] → step s = .next s)
  ∧ ∀ (s : State) (w : ActionWord) (rest : List HostEvent) (why : DecodeError),
      s.script = .action w :: rest → decodeAction w = .error why → step s = .refused (.notAnAction why)

/-! ## Host access (43_host_access.md) -/

/-- R170, R28, R20: `rd` returns the register of the number, zero-extended, OP and the reserved numbers as 0, and changes
nothing else. -/
def Obligations.RegisterReadReturnsTheZeroExtendedValue : Prop :=
  ∀ (r : BitVec 8) (s : State),
    exec (.rd r) s = .next { s with reply := some (.word (BitVec.ofNat 32 (
      if r = 0x01 then s.status.toNat else if r = 0x02 then s.fcap.toNat else if r = 0x03 then s.flen.toNat
      else if r = 0x04 then s.csBase.toNat else if r = 0x05 then s.csLen.toNat else if r = 0x06 then s.csIn.toNat
      else if r = 0x07 then s.csOut.toNat else if r = 0x08 then s.txNetfn.toNat else if r = 0x09 then s.txCmd.toNat
      else if r = 0x0A then s.txSeq.toNat else if r = 0x0B then s.txPlen.toNat
      else if r = 0x0C then s.rxNetfn.toNat else if r = 0x0D then s.rxCmd.toNat else if r = 0x0E then s.rxSeq.toNat
      else if r = 0x0F then s.rxPlen.toNat else if r = 0x10 then s.rxTlun.toNat
      else if r = 0x11 then s.rxSlun.toNat else 0))) }

/-- R171, R174, R82, R28: `wr` to OP starts the operation of the word, a reserved word gives STATUS 0x009 and nothing
else; a read-write register keeps the low W bits; a read-only register and a reserved number change nothing. -/
def Obligations.RegisterWriteStoresTheLowBitsOrDispatches : Prop :=
  ∀ (r : BitVec 8) (v : HostWord) (s : State),
    exec (.wr r v) s =
      if r = 0x00 then
        (if v = 1 then exec .csum s else if v = 2 then exec .verify s else if v = 3 then exec .encode s
         else if v = 4 then exec .decode s else .next { s with status := 0x009 })
      else if r = 0x02 then .next { s with fcap := BitVec.ofNat 16 v.toNat }
      else if r = 0x03 then .next { s with flen := BitVec.ofNat 16 v.toNat }
      else if r = 0x04 then .next { s with csBase := BitVec.ofNat 16 v.toNat }
      else if r = 0x05 then .next { s with csLen := BitVec.ofNat 16 v.toNat }
      else if r = 0x06 then .next { s with csIn := BitVec.ofNat 8 v.toNat }
      else if r = 0x08 then .next { s with txNetfn := BitVec.ofNat 8 v.toNat }
      else if r = 0x09 then .next { s with txCmd := BitVec.ofNat 8 v.toNat }
      else if r = 0x0A then .next { s with txSeq := v }
      else if r = 0x0B then .next { s with txPlen := BitVec.ofNat 16 v.toNat }
      else .next s

/-- R82: every word but 1, 2, 3 and 4 is reserved; written to OP it gives STATUS 0x009 (ERR = 1, DETAIL = 1, both flags
0) and changes nothing else. -/
def Obligations.ReservedOperationWordsReportBadOp : Prop :=
  ∀ (w : HostWord) (s : State), (w.toNat = 0 ∨ 4 < w.toNat) → exec (.wr 0x00 w) s = .next { s with status := 0x009 }

/-- R10, R51: reading a register right after a host write returns the low W bits written for a read-write register, and
what it held before for every other number but OP. -/
def Obligations.RegisterReadAfterWrite : Prop :=
  ∀ (r : BitVec 8) (v : HostWord) (s : State), r ≠ 0x00 →
    ∃ t u, exec (.wr r v) s = .next t ∧ exec (.rd r) t = .next u ∧
      (if r = 0x02 ∨ r = 0x03 ∨ r = 0x04 ∨ r = 0x05 ∨ r = 0x0B then
        u.reply = some (.word (BitVec.ofNat 32 (v.toNat % 2 ^ 16)))
       else if r = 0x06 ∨ r = 0x08 ∨ r = 0x09 then u.reply = some (.word (BitVec.ofNat 32 (v.toNat % 2 ^ 8)))
       else if r = 0x0A then u.reply = some (.word v)
       else exec (.rd r) s = .next { s with reply := u.reply })

/-- R172, R44: `rb` returns the byte at the address, 0 above 0x3FF, and changes nothing else. -/
def Obligations.BufferReadReturnsTheByte : Prop :=
  ∀ (a : BitVec 12) (s : State),
    exec (.rb a) s = .next { s with reply := some (.byte (if a.toNat ≤ 0x3FF then s.readByte a.toNat else 0)) }

/-- R173, R44: `wb` stores the byte at its address and leaves every other byte and every register alone; above 0x3FF it
changes nothing. -/
def Obligations.BufferWriteStoresOneByte : Prop :=
  ∀ (a : BitVec 12) (b : Byte) (s : State),
    if a.toNat ≤ 0x3FF then
      ∃ t, exec (.wb a b) s = .next t ∧ t = { s with mem := t.mem } ∧ t.readByte a.toNat = b
        ∧ ∀ x, x ≠ a.toNat → t.readByte x = s.readByte x
    else exec (.wb a b) s = .next s

/-- R51: a host read of a byte returns the latest write to it, and no write to another address comes in between. -/
def Obligations.BufferReadReturnsTheLatestWrite : Prop :=
  ∀ (a x : BitVec 12) (b c : Byte) (s : State), a.toNat ≤ 0x3FF → x ≠ a →
    ∃ t u v, exec (.wb a b) s = .next t ∧ exec (.wb x c) t = .next u ∧ exec (.rb a) u = .next v
      ∧ v.reply = some (.byte b)

/-- A byte that nothing has written since the reset reads as the free value of BUF_RESET, whatever it is (R47). THE
MODEL'S CHOICE (log entries 3, 4): the free value is `Config.bufReset`, applied to the count of resets and the address. -/
def Obligations.UnwrittenBytesReadAsTheFreeValue : Prop :=
  ∀ (a : BitVec 12) (s : State), a.toNat ≤ 0x3FF → (∀ c ∈ s.mem, c.1 ≠ a.toNat) →
    exec (.rb a) s = .next { s with reply := some (.byte (Config.bufReset s.resets a.toNat)) }

/-! ## The checksummer (40_checksum.md) -/

/-- R105, R103, R104: CSUM writes CS_OUT and STATUS only, or STATUS only on an empty or out-of-bounds range. -/
def Obligations.CsumWritesTheChecksumOfTheRange : Prop :=
  ∀ s : State,
    (s.csLen.toNat = 0 → exec .csum s = .next { s with status := 0x011 })
    ∧ (s.csLen.toNat ≠ 0 → s.csBase.toNat + s.csLen.toNat > 1024 → exec .csum s = .next { s with status := 0x019 })
    ∧ (s.csLen.toNat ≠ 0 → s.csBase.toNat + s.csLen.toNat ≤ 1024 →
        exec .csum s = .next { s with
          csOut := BitVec.ofNat 8 ((256 - ((List.range s.csLen.toNat).map fun i =>
            (s.readByte (s.csBase.toNat + i)).toNat).sum % 256) % 256)
          status := 0x000 })

/-- R106, R103, R104: VERIFY writes STATUS only: VOK says whether the range and CS_IN sum to 0 modulo 256. -/
def Obligations.VerifyReportsTheSumInVok : Prop :=
  ∀ s : State,
    (s.csLen.toNat = 0 → exec .verify s = .next { s with status := 0x011 })
    ∧ (s.csLen.toNat ≠ 0 → s.csBase.toNat + s.csLen.toNat > 1024 → exec .verify s = .next { s with status := 0x019 })
    ∧ (s.csLen.toNat ≠ 0 → s.csBase.toNat + s.csLen.toNat ≤ 1024 →
        exec .verify s = .next { s with
          status := if (((List.range s.csLen.toNat).map fun i => (s.readByte (s.csBase.toNat + i)).toNat).sum
              + s.csIn.toNat) % 256 = 0 then 0x100 else 0x000 })

/-- R102, laws 1 to 6, for every byte sequence. -/
def Obligations.ChecksumLaws : Prop :=
  ∀ (bs cs : List Byte) (c : Byte),
    (byteSum bs % 256 = (bs.foldl (· + ·) (0 : Byte)).toNat ∧ (List.Perm bs cs → csum8 bs = csum8 cs))
    ∧ csum8 bs = ~~~(BitVec.ofNat 8 (byteSum bs)) + 1
    ∧ (byteSum bs + (csum8 bs).toNat) % 256 = 0
    ∧ (vsum8 bs c = true ↔ c = csum8 bs)
    ∧ (vsum8 bs c = vsum8 (bs ++ [c]) 0 ∧ (vsum8 bs c = true ↔ byteSum (bs ++ [c]) % 256 = 0))
    ∧ (csum8 (bs ++ cs)).toNat = ((csum8 bs).toNat + (csum8 cs).toNat) % 256
    ∧ (csum8 [c]).toNat = (256 - c.toNat) % 256 ∧ ∀ n, csum8 (List.replicate n 0) = 0

/-- R102, law 7: replacing exactly one byte of a sequence that verifies, or its checksum byte, breaks it. -/
def Obligations.OneChangedByteBreaksTheChecksum : Prop :=
  ∀ (bs : List Byte) (c : Byte), vsum8 bs c = true →
    (∀ (i : Nat) (h : i < bs.length) (b : Byte), b ≠ bs[i] → vsum8 (bs.set i b) c = false)
    ∧ ∀ c', c' ≠ c → vsum8 bs c' = false

/-- R107: `op CSUM; rd CS_OUT -> c; wr CS_IN, c; op VERIFY; rd STATUS` ends with STATUS = 0x100. -/
def Obligations.CsumThenVerifySucceeds : Prop :=
  ∀ s : State, 1 ≤ s.csLen.toNat → s.csBase.toNat + s.csLen.toNat ≤ 1024 →
    ∃ s₁ s₂ s₃ s₄ s₅ c,
      exec (.wr 0x00 1) s = .next s₁ ∧ exec (.rd 0x07) s₁ = .next s₂ ∧ s₂.reply = some (.word c)
      ∧ exec (.wr 0x06 c) s₂ = .next s₃ ∧ exec (.wr 0x00 2) s₃ = .next s₄ ∧ exec (.rd 0x01) s₄ = .next s₅
      ∧ s₅.reply = some (.word 0x100)

/-- R104, R31: CSUM and VERIFY depend on CS_BASE, CS_LEN, CS_IN and the bytes of the range only. -/
def Obligations.ChecksumOperationsReadOnlyTheirRange : Prop :=
  ∀ s t s' t' : State, s.csBase = t.csBase → s.csLen = t.csLen →
    (∀ i < s.csLen.toNat, s.readByte (s.csBase.toNat + i) = t.readByte (s.csBase.toNat + i)) →
    (exec .csum s = .next s' → exec .csum t = .next t' →
      s'.status = t'.status ∧ (s'.status = 0 → s'.csOut = t'.csOut))
    ∧ (s.csIn = t.csIn → exec .verify s = .next s' → exec .verify t = .next t' → s'.status = t'.status)

/-! ## Frame assembly (41_encode.md) -/

/-- R121, R122, R124 in the order of R123: the first failing check is reported, and nothing but STATUS changes. -/
def Obligations.EncodeReportsTheFirstFailingCheck : Prop :=
  ∀ s : State,
    if s.txNetfn.toNat > 63 then exec .encode s = .next { s with status := 0x021 }
    else if s.txPlen.toNat > 256 then exec .encode s = .next { s with status := 0x029 }
    else if s.txPlen.toNat > 248 then exec .encode s = .next { s with status := 0x031 }
    else if s.fcap.toNat < 21 + s.txPlen.toNat then exec .encode s = .next { s with status := 0x03A }
    else ∃ t, exec .encode s = .next t ∧ t.status = 0x000

/-- R131 (R125 to R130): when the checks pass, FB holds the frame of R60, FLEN its length, and nothing else changes. -/
def Obligations.EncodeBuildsTheFrame : Prop :=
  ∀ s : State, s.txNetfn.toNat ≤ 63 → s.txPlen.toNat ≤ 248 → 21 + s.txPlen.toNat ≤ s.fcap.toNat →
    ∃ t, exec .encode s = .next t
      ∧ t = { s with mem := t.mem, flen := BitVec.ofNat 16 (21 + s.txPlen.toNat), status := 0x000 }
      ∧ t.readByte 0 = 0x06 ∧ t.readByte 1 = 0x00 ∧ t.readByte 2 = 0xFF ∧ t.readByte 3 = 0x07
      ∧ (∀ i, 4 ≤ i → i ≤ 12 → t.readByte i = 0x00)
      ∧ (t.readByte 13).toNat = 7 + s.txPlen.toNat
      ∧ t.readByte 14 = 0x20 ∧ (t.readByte 15).toNat = 4 * s.txNetfn.toNat
      ∧ (t.readByte 16).toNat = (256 - ((t.readByte 14).toNat + (t.readByte 15).toNat) % 256) % 256
      ∧ t.readByte 17 = 0x81 ∧ (t.readByte 18).toNat = 4 * (s.txSeq.toNat % 64) ∧ t.readByte 19 = s.txCmd
      ∧ (∀ i < s.txPlen.toNat, t.readByte (20 + i) = s.readByte (0x200 + i))
      ∧ (t.readByte (20 + s.txPlen.toNat)).toNat
          = (256 - ((List.range (3 + s.txPlen.toNat)).map fun i => (t.readByte (17 + i)).toNat).sum % 256) % 256
      ∧ ∀ a, 21 + s.txPlen.toNat ≤ a → t.readByte a = s.readByte a

/-- R120, R43: two states with the same TX registers, the same FCAP and the same `TXP[0..n)` give the same outcome, and on
success the same FLEN and frame: nothing else is read. -/
def Obligations.EncodeReadsOnlyTheMessage : Prop :=
  ∀ s t s' t' : State, s.txNetfn = t.txNetfn → s.txCmd = t.txCmd → s.txSeq = t.txSeq → s.txPlen = t.txPlen →
    s.fcap = t.fcap → (∀ i < s.txPlen.toNat, s.readByte (0x200 + i) = t.readByte (0x200 + i)) →
    exec .encode s = .next s' → exec .encode t = .next t' →
      s'.status = t'.status
      ∧ (s'.status = 0 → s'.flen = t'.flen ∧ ∀ a < 21 + s.txPlen.toNat, s'.readByte a = t'.readByte a)

/-- R132, item 8: ENCODE twice with unchanged inputs is ENCODE once. -/
def Obligations.EncodeTwiceIsEncodeOnce : Prop :=
  ∀ s t : State, Memory.wf s.mem = true → exec .encode s = .next t → exec .encode t = .next t

/-! ## Frame parsing (42_decode.md) -/

/-- R141 to R153 in the order of R156: the first failing step is reported, AUTH_WARN is `FB[4] != 0` from step 3 on
(R146), and nothing but STATUS changes. -/
def Obligations.DecodeReportsTheFirstFailingStep : Prop :=
  ∀ s : State,
    if s.flen.toNat > 512 then exec .decode s = .next { s with status := 0x019 }
    else if s.flen.toNat < 20 then exec .decode s = .next { s with status := 0x045 }
    else if s.readByte 0 ≠ 0x06 then exec .decode s = .next { s with status := 0x04D }
    else if s.readByte 3 ≠ 0x07 then exec .decode s = .next { s with status := 0x055 }
    else if 14 + (s.readByte 13).toNat > s.flen.toNat then
      exec .decode s = .next { s with status := if s.readByte 4 = 0 then 0x05D else 0x25D }
    else if ((s.readByte 14).toNat + (s.readByte 15).toNat + (s.readByte 16).toNat) % 256 ≠ 0 then
      exec .decode s = .next { s with status := if s.readByte 4 = 0 then 0x065 else 0x265 }
    else if (s.readByte 13).toNat < 7 then
      exec .decode s = .next { s with status := if s.readByte 4 = 0 then 0x06D else 0x26D }
    else if ((List.range ((s.readByte 13).toNat - 3)).map fun i => (s.readByte (17 + i)).toNat).sum % 256 ≠ 0 then
      exec .decode s = .next { s with status := if s.readByte 4 = 0 then 0x07D else 0x27D }
    else ∃ t, exec .decode s = .next t ∧ t.status = if s.readByte 4 = 0 then 0x000 else 0x200

/-- R155, R149, R152: when every step passes, DECODE commits the six RX registers and `RXP[0..n)`, `n = L - 7`, and
changes nothing else but STATUS; when any step fails, it changes STATUS only. -/
def Obligations.DecodeCommitsTheMessage : Prop :=
  (∀ s : State, 20 ≤ s.flen.toNat → s.flen.toNat ≤ 512 → s.readByte 0 = 0x06 → s.readByte 3 = 0x07 →
    14 + (s.readByte 13).toNat ≤ s.flen.toNat →
    ((s.readByte 14).toNat + (s.readByte 15).toNat + (s.readByte 16).toNat) % 256 = 0 → 7 ≤ (s.readByte 13).toNat →
    ((List.range ((s.readByte 13).toNat - 3)).map fun i => (s.readByte (17 + i)).toNat).sum % 256 = 0 →
    ∃ t, exec .decode s = .next t
      ∧ t = { s with
          mem := t.mem
          rxNetfn := BitVec.ofNat 6 ((s.readByte 15).toNat / 4)
          rxCmd := s.readByte 19
          rxSeq := BitVec.ofNat 6 ((s.readByte 18).toNat / 4)
          rxPlen := BitVec.ofNat 9 ((s.readByte 13).toNat - 7)
          rxTlun := BitVec.ofNat 2 ((s.readByte 15).toNat % 4)
          rxSlun := BitVec.ofNat 2 ((s.readByte 18).toNat % 4)
          status := if s.readByte 4 = 0 then 0x000 else 0x200 }
      ∧ (∀ i < (s.readByte 13).toNat - 7, t.readByte (0x300 + i) = s.readByte (20 + i))
      ∧ ∀ a, (a < 0x300 ∨ 0x300 + ((s.readByte 13).toNat - 7) ≤ a) → t.readByte a = s.readByte a)
  ∧ ∀ s t : State, exec .decode s = .next t → statusErr t.status ≠ 0 → t = { s with status := t.status }

/-- R140, R145, R154: DECODE depends on FLEN and the received bytes of the frame only, and not on offsets 1, 2 and 5 to
12; bytes after the message body and beyond FLEN have no influence. -/
def Obligations.DecodeReadsOnlyTheFrame : Prop :=
  ∀ s t s' t' : State, s.flen = t.flen →
    (∀ i < s.flen.toNat, (i < 20 ∨ i < 14 + (s.readByte 13).toNat) → i ≠ 1 → i ≠ 2 → (i < 5 ∨ 12 < i) →
      s.readByte i = t.readByte i) →
    exec .decode s = .next s' → exec .decode t = .next t' →
      s'.status = t'.status
      ∧ (statusErr s'.status = 0 →
          s'.rxNetfn = t'.rxNetfn ∧ s'.rxCmd = t'.rxCmd ∧ s'.rxSeq = t'.rxSeq ∧ s'.rxPlen = t'.rxPlen
          ∧ s'.rxTlun = t'.rxTlun ∧ s'.rxSlun = t'.rxSlun
          ∧ ∀ i < s'.rxPlen.toNat, s'.readByte (0x300 + i) = t'.readByte (0x300 + i))

/-- R157, item 9: DECODE twice is DECODE once; it does not consume the frame. -/
def Obligations.DecodeTwiceIsDecodeOnce : Prop :=
  ∀ s t : State, Memory.wf s.mem = true → exec .decode s = .next t → exec .decode t = .next t

/-- R157, item 2: a buffer of 20 bytes never decodes and only STATUS changes: BAD_VERSION (DETAIL 9) or BAD_CLASS (10) is
reported first; else BODY_OVERRUN (11) where `L >= 7`, and HDR_CSUM (12) or BODY_LEN_SMALL (13) where `L <= 6`. -/
def Obligations.TwentyBytesNeverDecode : Prop :=
  ∀ s : State, s.flen.toNat = 20 →
    ∃ st, exec .decode s = .next { s with status := st } ∧ statusErr st = 5
      ∧ (s.readByte 0 ≠ 0x06 → statusDetail st = 9)
      ∧ (s.readByte 0 = 0x06 → s.readByte 3 ≠ 0x07 → statusDetail st = 10)
      ∧ (7 ≤ (s.readByte 13).toNat → s.readByte 0 = 0x06 → s.readByte 3 = 0x07 → statusDetail st = 11)
      ∧ ((s.readByte 13).toNat ≤ 6 → s.readByte 0 = 0x06 → s.readByte 3 = 0x07 →
          statusDetail st = 12 ∨ statusDetail st = 13)

/-- R158: from any state that meets ENCODE's conditions, `op ENCODE; op DECODE` returns the message: NetFn, command, the
sequence value modulo 64, the length, LUNs 0, and the payload. -/
def Obligations.EncodeThenDecodeReturnsTheMessage : Prop :=
  ∀ s : State, s.txNetfn.toNat ≤ 63 → s.txPlen.toNat ≤ 248 → 21 + s.txPlen.toNat ≤ s.fcap.toNat →
    ∃ t u, exec (.wr 0x00 3) s = .next t ∧ exec (.wr 0x00 4) t = .next u ∧ u.status = 0x000
      ∧ u.rxNetfn.toNat = s.txNetfn.toNat ∧ u.rxCmd = s.txCmd ∧ u.rxSeq.toNat = s.txSeq.toNat % 64
      ∧ u.rxPlen.toNat = s.txPlen.toNat ∧ u.rxTlun = 0 ∧ u.rxSlun = 0
      ∧ ∀ i < s.txPlen.toNat, u.readByte (0x300 + i) = s.readByte (0x200 + i)
          ∧ u.readByte (0x200 + i) = s.readByte (0x200 + i)

/-- R159: a frame written by ENCODE and then changed in exactly one byte, offset `j`, to a different value `b`: what
DECODE answers, for every offset of the frame. `t` is the state after ENCODE, `v` after DECODE. -/
def Obligations.OneCorruptedByteOfAFrame : Prop :=
  ∀ (s t : State) (j : BitVec 12) (b : Byte), s.txNetfn.toNat ≤ 63 → s.txPlen.toNat ≤ 248 →
    21 + s.txPlen.toNat ≤ s.fcap.toNat → exec .encode s = .next t → j.toNat < 21 + s.txPlen.toNat →
    b ≠ t.readByte j.toNat →
    ∃ u v, exec (.wb j b) t = .next u ∧ exec .decode u = .next v ∧
      (if j.toNat = 0 then v.status = 0x04D
       else if j.toNat = 3 then v.status = 0x055
       else if j.toNat ≤ 12 then
         v.status = (if j.toNat = 4 then 0x200 else 0x000)
         ∧ v.rxNetfn.toNat = s.txNetfn.toNat ∧ v.rxCmd = s.txCmd ∧ v.rxSeq.toNat = s.txSeq.toNat % 64
         ∧ v.rxPlen.toNat = s.txPlen.toNat ∧ v.rxTlun = 0 ∧ v.rxSlun = 0
         ∧ ∀ i < s.txPlen.toNat, v.readByte (0x300 + i) = s.readByte (0x200 + i)
       else if j.toNat = 13 then
         (if b.toNat > 7 + s.txPlen.toNat then v.status = 0x05D
          else if b.toNat < 7 then v.status = 0x06D
          else if ((List.range (b.toNat - 3)).map fun i => (t.readByte (17 + i)).toNat).sum % 256 = 0 then
            v.status = 0x000
            ∧ v.rxNetfn.toNat = s.txNetfn.toNat ∧ v.rxCmd = s.txCmd ∧ v.rxSeq.toNat = s.txSeq.toNat % 64
            ∧ v.rxPlen.toNat = b.toNat - 7 ∧ v.rxTlun = 0 ∧ v.rxSlun = 0
            ∧ ∀ i < b.toNat - 7, v.readByte (0x300 + i) = s.readByte (0x200 + i)
          else v.status = 0x07D)
       else if j.toNat ≤ 16 then v.status = 0x065
       else v.status = 0x07D)

/-! ## Errors and flags (60_exceptions.md, 10_state.md) -/

/-- R196, R34: an operation that raises writes STATUS and nothing else: VOK is 0, and AUTH_WARN is 0 except in DECODE,
where it can be 1 only if `FB[4]` is not 0. -/
def Obligations.AnErrorChangesStatusOnly : Prop :=
  ∀ (i : Instr) (s t : State), (i = .csum ∨ i = .verify ∨ i = .encode ∨ i = .decode) → exec i s = .next t →
    statusErr t.status ≠ 0 →
      t = { s with status := t.status } ∧ statusVok t.status = false
      ∧ (statusAuthWarn t.status = true → i = .decode ∧ s.readByte 4 ≠ 0)

/-- R191, R192, R194, R151: after an operation or a reserved word DETAIL is at most 15 and never 14, it determines ERR,
and ERR is 0, 1, 2 or 5. -/
def Obligations.DetailDeterminesErr : Prop :=
  ∀ (i : Instr) (s t : State), (i = .csum ∨ i = .verify ∨ i = .encode ∨ i = .decode ∨ ∃ v, i = .wr 0 v) →
    exec i s = .next t →
      (statusDetail t.status).toNat ≤ 15 ∧ (statusDetail t.status).toNat ≠ 14
      ∧ (statusErr t.status).toNat =
          if (statusDetail t.status).toNat = 0 then 0
          else if (statusDetail t.status).toNat ≤ 6 then 1
          else if (statusDetail t.status).toNat = 7 then 2
          else 5

/-- R29: VOK is 1 exactly after a VERIFY that ended with ERR = 0 and found the checksum correct; AUTH_WARN is 1 exactly
after a DECODE that passed steps 1 and 2 (and step 0) and found `FB[4]` not 0. -/
def Obligations.FlagsSayWhatTheLastOperationFound : Prop :=
  ∀ (i : Instr) (s t : State), (i = .csum ∨ i = .verify ∨ i = .encode ∨ i = .decode) → exec i s = .next t →
    (statusVok t.status = true ↔
      i = .verify ∧ s.csLen.toNat ≠ 0 ∧ s.csBase.toNat + s.csLen.toNat ≤ 1024
      ∧ (((List.range s.csLen.toNat).map fun k => (s.readByte (s.csBase.toNat + k)).toNat).sum + s.csIn.toNat) % 256 = 0)
    ∧ (statusAuthWarn t.status = true ↔
      i = .decode ∧ 20 ≤ s.flen.toNat ∧ s.flen.toNat ≤ 512 ∧ s.readByte 0 = 0x06 ∧ s.readByte 3 = 0x07
      ∧ s.readByte 4 ≠ 0x00)

/-- R21, R31: every operation overwrites all of STATUS and reads none of it: the outcome does not depend on what STATUS
held. -/
def Obligations.OperationsOverwriteAllOfStatus : Prop :=
  ∀ (i : Instr) (s : State) (st : BitVec 10), (i = .csum ∨ i = .verify ∨ i = .encode ∨ i = .decode ∨ ∃ v, i = .wr 0 v) →
    exec i { s with status := st } = exec i s

/-- R21: "Host reads and writes of registers and buffers never change STATUS": only an operation or a write to OP can. -/
def Obligations.OnlyOperationsChangeStatus : Prop :=
  ∀ (i : Instr) (s t : State), exec i s = .next t → t.status ≠ s.status →
    i = .csum ∨ i = .verify ∨ i = .encode ∨ i = .decode ∨ ∃ v, i = .wr 0 v

/-! ## Who writes what, over all instructions (10_state.md R34, 20_memory.md) -/

/-- R174, R222 ("every operation is defined from every state"): every instruction completes in every state; none faults
and none is refused. -/
def Obligations.EveryInstructionAlwaysCompletes : Prop := ∀ (i : Instr) (s : State), ∃ t, exec i s = .next t

/-- R15 to R19, R155: the RX registers change only by a DECODE that ends with ERR = 0. -/
def Obligations.MessageRegistersChangeOnlyByDecode : Prop :=
  ∀ (i : Instr) (s t : State), exec i s = .next t →
    (t.rxNetfn = s.rxNetfn ∧ t.rxCmd = s.rxCmd ∧ t.rxSeq = s.rxSeq ∧ t.rxPlen = s.rxPlen ∧ t.rxTlun = s.rxTlun
      ∧ t.rxSlun = s.rxSlun)
    ∨ ((i = .decode ∨ i = .wr 0 4) ∧ statusErr t.status = 0)

/-- R27: CS_OUT changes only by a CSUM that ends with ERR = 0. -/
def Obligations.ChecksumResultChangesOnlyByCsum : Prop :=
  ∀ (i : Instr) (s t : State), exec i s = .next t → t.csOut ≠ s.csOut → (i = .csum ∨ i = .wr 0 1) ∧ t.status = 0

/-- R34, R10: the input registers change only by a host write, FLEN also by an ENCODE that ends with ERR = 0. -/
def Obligations.InputRegistersChangeOnlyByTheHost : Prop :=
  ∀ (i : Instr) (s t : State), exec i s = .next t → (∀ r v, r ≠ 0 → i ≠ .wr r v) →
    t.fcap = s.fcap ∧ t.csBase = s.csBase ∧ t.csLen = s.csLen ∧ t.csIn = s.csIn ∧ t.txNetfn = s.txNetfn
    ∧ t.txCmd = s.txCmd ∧ t.txSeq = s.txSeq ∧ t.txPlen = s.txPlen
    ∧ (t.flen = s.flen ∨ ((i = .encode ∨ i = .wr 0 3) ∧ t.status = 0))

/-- R34, R41, R45: which bytes an instruction can change: ENCODE those of `FB[0..269)`, DECODE those of `RXP[0..248)`, a
host write the one it addresses inside 0x000 to 0x3FF, and nothing else any. -/
def Obligations.WritesStayInTheirRegion : Prop :=
  ∀ (i : Instr) (s t : State), exec i s = .next t → ∀ a, t.readByte a ≠ s.readByte a →
    ((i = .encode ∨ i = .wr 0 3) ∧ a < 21 + s.txPlen.toNat ∧ a ≤ 268)
    ∨ ((i = .decode ∨ i = .wr 0 4) ∧ 0x300 ≤ a ∧ a < 0x300 + t.rxPlen.toNat ∧ a ≤ 0x3F7)
    ∨ ∃ x b, i = .wb x b ∧ a = x.toNat ∧ a ≤ 0x3FF

/-- R49: reading has no side effect: only `rd` and `rb` change the data returned, and they change nothing else. The
script and the count of resets are no instruction's business. THE MODEL'S CHOICE: these three fields are the model's own
(log entries 1, 2, 4). -/
def Obligations.OnlyReadsReturnData : Prop :=
  ∀ (i : Instr) (s t : State), exec i s = .next t →
    t.script = s.script ∧ t.resets = s.resets
    ∧ (((∃ r, i = .rd r) ∨ ∃ a, i = .rb a) → t = { s with reply := t.reply })
    ∧ (t.reply ≠ s.reply → (∃ r, i = .rd r) ∨ ∃ a, i = .rb a)

/-- R31, R20: every instruction depends on registers and buffers only: whatever stands in the script and in the data read
before, an operation or a host write ends in the same registers and buffers and leaves those two alone, and a host read
returns the same data. THE MODEL'S CHOICE: the script and the data read are fields of the model's own (log entries 1, 2). -/
def Obligations.OperationsDependOnRegistersAndBuffersOnly : Prop :=
  ∀ (i : Instr) (s t : State) (sc : List HostEvent) (rp : Option Reply), exec i s = .next t →
    (((∃ r, i = .rd r) ∨ ∃ a, i = .rb a) →
      exec i { s with script := sc, reply := rp } = .next { t with script := sc })
    ∧ (¬((∃ r, i = .rd r) ∨ ∃ a, i = .rb a) →
      exec i { s with script := sc, reply := rp } = .next { t with script := sc, reply := rp })

/-! ## The invariant -/

/-- The state after reset meets the invariant. -/
def Obligations.ResetMeetsTheInvariant : Prop := State.reset.Inv

/-- From every state that meets the invariant, reached or not, a step that answers a next state gives one that meets it:
the buffer space stays in its canonical form inside 0x000 to 0x3FF (R40, R45), RX_PLEN never exceeds 248 (R18, R32), and
STATUS holds one of the values of R194, so ERR is never 3, 4, 6 or 7 (R191, R192). -/
def Obligations.StepKeepsTheInvariant : Prop :=
  ∀ s t : State, s.Inv → step s = .next t → t.Inv
end

