-- ==== Sys2Proof/Laws/Checksum.lean ====
section
/-! SUPPORT. The checksum functions and the packed fields: one lemma per function that says what it is on numbers. -/

namespace Sys2Proof.Machine

@[simp] theorem byteSum_nil : byteSum [] = 0 := rfl

@[simp] theorem byteSum_cons (b : Byte) (bs : List Byte) : byteSum (b :: bs) = b.toNat + byteSum bs := by
  simp [byteSum]

@[simp] theorem byteSum_append (bs cs : List Byte) : byteSum (bs ++ cs) = byteSum bs + byteSum cs := by
  simp [byteSum]

/-- R100 on numbers. -/
theorem csum8_toNat (bs : List Byte) : (csum8 bs).toNat = (256 - byteSum bs % 256) % 256 := by
  simp [csum8]

/-- R101 on numbers. -/
theorem vsum8_iff (bs : List Byte) (c : Byte) : vsum8 bs c = true ↔ (byteSum bs + c.toNat) % 256 = 0 := by
  simp [vsum8]

/-- R70 on numbers. -/
theorem pack62_toNat (h : BitVec 6) (l : BitVec 2) : (pack62 h l).toNat = 4 * h.toNat + l.toNat := by
  have key : ∀ (h : BitVec 6) (l : BitVec 2), (pack62 h l).toNat = 4 * h.toNat + l.toNat := by decide
  exact key h l

/-- R71 on numbers. -/
theorem hi6_toNat (b : Byte) : (hi6 b).toNat = b.toNat / 4 := by
  have := b.isLt
  simp [hi6, Nat.shiftRight_eq_div_pow]
  omega

/-- R72 on numbers. -/
theorem lo2_toNat (b : Byte) : (lo2 b).toNat = b.toNat % 4 := by
  simp [lo2]

end Sys2Proof.Machine
end

