-- ==== Sys2Proof/Laws/Decode.lean ====
section
/-! SUPPORT. The fields of a 48-bit action record as numbers, and what the record decoder answers for each kind. -/

namespace Sys2Proof

/-! ### The fields of a record (R87) -/

theorem ActionRecord.ofWord_k (w : ActionWord) : (ActionRecord.ofWord w).k.toNat = w.toNat / 2 ^ 44 := by
  have := w.isLt
  simp [ActionRecord.ofWord, Nat.shiftRight_eq_div_pow]
  omega

theorem ActionRecord.ofWord_a (w : ActionWord) : (ActionRecord.ofWord w).a.toNat = w.toNat / 2 ^ 32 % 2 ^ 12 := by
  simp [ActionRecord.ofWord, Nat.shiftRight_eq_div_pow]

theorem ActionRecord.ofWord_d (w : ActionWord) : (ActionRecord.ofWord w).d.toNat = w.toNat % 2 ^ 32 := by
  simp [ActionRecord.ofWord]

theorem ActionRecord.toWord_toNat (t : ActionRecord) :
    t.toWord.toNat = t.k.toNat * 2 ^ 44 + t.a.toNat * 2 ^ 32 + t.d.toNat := by
  have ha := t.a.isLt
  have hd := t.d.isLt
  have e1 : (t.k ++ t.a).toNat = t.k.toNat * 2 ^ 12 + t.a.toNat := by
    rw [BitVec.toNat_append, ← Nat.shiftLeft_add_eq_or_of_lt ha, Nat.shiftLeft_eq]
  have e2 : t.toWord.toNat = (t.k ++ t.a).toNat * 2 ^ 32 + t.d.toNat := by
    rw [ActionRecord.toWord, BitVec.toNat_append, ← Nat.shiftLeft_add_eq_or_of_lt hd, Nat.shiftLeft_eq]
  rw [e2, e1, Nat.add_mul, Nat.mul_assoc, ← Nat.pow_add]

theorem ActionRecord.ext_toNat {t u : ActionRecord} (hk : t.k.toNat = u.k.toNat) (ha : t.a.toNat = u.a.toNat)
    (hd : t.d.toNat = u.d.toNat) : t = u := by
  cases t; cases u
  simp only [ActionRecord.mk.injEq]
  exact ⟨BitVec.eq_of_toNat_eq hk, BitVec.eq_of_toNat_eq ha, BitVec.eq_of_toNat_eq hd⟩

@[simp] theorem ActionRecord.ofWord_toWord (t : ActionRecord) : ActionRecord.ofWord t.toWord = t := by
  have hk := t.k.isLt
  have ha := t.a.isLt
  have hd := t.d.isLt
  have h := t.toWord_toNat
  apply ActionRecord.ext_toNat
  · rw [ActionRecord.ofWord_k]; omega
  · rw [ActionRecord.ofWord_a]; omega
  · rw [ActionRecord.ofWord_d]; omega

@[simp] theorem ActionRecord.toWord_ofWord (w : ActionWord) : (ActionRecord.ofWord w).toWord = w := by
  have := w.isLt
  apply BitVec.eq_of_toNat_eq
  rw [ActionRecord.toWord_toNat, ActionRecord.ofWord_k, ActionRecord.ofWord_a, ActionRecord.ofWord_d]
  omega

/-! ### The kinds -/

@[simp] theorem ActionKind.ofCode_code (k : ActionKind) : ActionKind.ofCode k.code = some k := by
  cases k <;> rfl

theorem ActionKind.ofCode_eq_some {c : BitVec 4} {k : ActionKind} (h : ActionKind.ofCode c = some k) : c = k.code := by
  revert c
  cases k <;> decide

theorem ActionKind.ofCode_eq_none (c : BitVec 4) : ActionKind.ofCode c = none ↔ 3 < c.toNat := by
  revert c
  decide

/-! ### What the record decoder answers, kind by kind (R87) -/

theorem decodeRecord_rd (a : BitVec 12) (d : HostWord) : decodeRecord ⟨ActionKind.rd.code, a, d⟩ =
    if a.toNat > 0xFF then .error .registerNumberRange else if d ≠ 0#32 then .error .readDataNotZero
    else .ok (.rd (a.setWidth 8)) := rfl

theorem decodeRecord_wr (a : BitVec 12) (d : HostWord) : decodeRecord ⟨ActionKind.wr.code, a, d⟩ =
    if a.toNat > 0xFF then .error .registerNumberRange else .ok (.wr (a.setWidth 8) d) := rfl

theorem decodeRecord_rb (a : BitVec 12) (d : HostWord) : decodeRecord ⟨ActionKind.rb.code, a, d⟩ =
    if d ≠ 0#32 then .error .readDataNotZero else .ok (.rb a) := rfl

theorem decodeRecord_wb (a : BitVec 12) (d : HostWord) : decodeRecord ⟨ActionKind.wb.code, a, d⟩ =
    if d.toNat > 0xFF then .error .writeDataNotByte else .ok (.wb a (d.setWidth 8)) := rfl

theorem decodeRecord_unknown {t : ActionRecord} (h : 3 < t.k.toNat) : decodeRecord t = .error .unknownKind := by
  simp [decodeRecord, (ActionKind.ofCode_eq_none t.k).2 h]

/-- A record is of one of the four kinds or of none. -/
theorem ActionRecord.kind_cases (t : ActionRecord) :
    (∃ k : ActionKind, t = ⟨k.code, t.a, t.d⟩) ∨ 3 < t.k.toNat := by
  cases h : ActionKind.ofCode t.k with
  | none => exact .inr ((ActionKind.ofCode_eq_none t.k).1 h)
  | some k => exact .inl ⟨k, by rw [← ActionKind.ofCode_eq_some h]⟩

end Sys2Proof
end

