-- ==== Sys2Proof/Laws/State.lean ====
section
/-! SUPPORT. What each field is after each named update of the state, so that no proof unfolds a record update. -/

namespace Sys2Proof.Machine

/-! ### setStatus -/

@[simp] theorem State.setStatus_status (s : State) (st : BitVec 10) : (s.setStatus st).status = st := rfl
@[simp] theorem State.setStatus_fcap (s : State) (st : BitVec 10) : (s.setStatus st).fcap = s.fcap := rfl
@[simp] theorem State.setStatus_flen (s : State) (st : BitVec 10) : (s.setStatus st).flen = s.flen := rfl
@[simp] theorem State.setStatus_csBase (s : State) (st : BitVec 10) : (s.setStatus st).csBase = s.csBase := rfl
@[simp] theorem State.setStatus_csLen (s : State) (st : BitVec 10) : (s.setStatus st).csLen = s.csLen := rfl
@[simp] theorem State.setStatus_csIn (s : State) (st : BitVec 10) : (s.setStatus st).csIn = s.csIn := rfl
@[simp] theorem State.setStatus_csOut (s : State) (st : BitVec 10) : (s.setStatus st).csOut = s.csOut := rfl
@[simp] theorem State.setStatus_txNetfn (s : State) (st : BitVec 10) : (s.setStatus st).txNetfn = s.txNetfn := rfl
@[simp] theorem State.setStatus_txCmd (s : State) (st : BitVec 10) : (s.setStatus st).txCmd = s.txCmd := rfl
@[simp] theorem State.setStatus_txSeq (s : State) (st : BitVec 10) : (s.setStatus st).txSeq = s.txSeq := rfl
@[simp] theorem State.setStatus_txPlen (s : State) (st : BitVec 10) : (s.setStatus st).txPlen = s.txPlen := rfl
@[simp] theorem State.setStatus_rxNetfn (s : State) (st : BitVec 10) : (s.setStatus st).rxNetfn = s.rxNetfn := rfl
@[simp] theorem State.setStatus_rxCmd (s : State) (st : BitVec 10) : (s.setStatus st).rxCmd = s.rxCmd := rfl
@[simp] theorem State.setStatus_rxSeq (s : State) (st : BitVec 10) : (s.setStatus st).rxSeq = s.rxSeq := rfl
@[simp] theorem State.setStatus_rxPlen (s : State) (st : BitVec 10) : (s.setStatus st).rxPlen = s.rxPlen := rfl
@[simp] theorem State.setStatus_rxTlun (s : State) (st : BitVec 10) : (s.setStatus st).rxTlun = s.rxTlun := rfl
@[simp] theorem State.setStatus_rxSlun (s : State) (st : BitVec 10) : (s.setStatus st).rxSlun = s.rxSlun := rfl
@[simp] theorem State.setStatus_mem (s : State) (st : BitVec 10) : (s.setStatus st).mem = s.mem := rfl
@[simp] theorem State.setStatus_script (s : State) (st : BitVec 10) : (s.setStatus st).script = s.script := rfl
@[simp] theorem State.setStatus_reply (s : State) (st : BitVec 10) : (s.setStatus st).reply = s.reply := rfl
@[simp] theorem State.setStatus_resets (s : State) (st : BitVec 10) : (s.setStatus st).resets = s.resets := rfl

/-! ### setCsOut -/

@[simp] theorem State.setCsOut_status (s : State) (b : Byte) : (s.setCsOut b).status = s.status := rfl
@[simp] theorem State.setCsOut_fcap (s : State) (b : Byte) : (s.setCsOut b).fcap = s.fcap := rfl
@[simp] theorem State.setCsOut_flen (s : State) (b : Byte) : (s.setCsOut b).flen = s.flen := rfl
@[simp] theorem State.setCsOut_csBase (s : State) (b : Byte) : (s.setCsOut b).csBase = s.csBase := rfl
@[simp] theorem State.setCsOut_csLen (s : State) (b : Byte) : (s.setCsOut b).csLen = s.csLen := rfl
@[simp] theorem State.setCsOut_csIn (s : State) (b : Byte) : (s.setCsOut b).csIn = s.csIn := rfl
@[simp] theorem State.setCsOut_csOut (s : State) (b : Byte) : (s.setCsOut b).csOut = b := rfl
@[simp] theorem State.setCsOut_txNetfn (s : State) (b : Byte) : (s.setCsOut b).txNetfn = s.txNetfn := rfl
@[simp] theorem State.setCsOut_txCmd (s : State) (b : Byte) : (s.setCsOut b).txCmd = s.txCmd := rfl
@[simp] theorem State.setCsOut_txSeq (s : State) (b : Byte) : (s.setCsOut b).txSeq = s.txSeq := rfl
@[simp] theorem State.setCsOut_txPlen (s : State) (b : Byte) : (s.setCsOut b).txPlen = s.txPlen := rfl
@[simp] theorem State.setCsOut_rxNetfn (s : State) (b : Byte) : (s.setCsOut b).rxNetfn = s.rxNetfn := rfl
@[simp] theorem State.setCsOut_rxCmd (s : State) (b : Byte) : (s.setCsOut b).rxCmd = s.rxCmd := rfl
@[simp] theorem State.setCsOut_rxSeq (s : State) (b : Byte) : (s.setCsOut b).rxSeq = s.rxSeq := rfl
@[simp] theorem State.setCsOut_rxPlen (s : State) (b : Byte) : (s.setCsOut b).rxPlen = s.rxPlen := rfl
@[simp] theorem State.setCsOut_rxTlun (s : State) (b : Byte) : (s.setCsOut b).rxTlun = s.rxTlun := rfl
@[simp] theorem State.setCsOut_rxSlun (s : State) (b : Byte) : (s.setCsOut b).rxSlun = s.rxSlun := rfl
@[simp] theorem State.setCsOut_mem (s : State) (b : Byte) : (s.setCsOut b).mem = s.mem := rfl
@[simp] theorem State.setCsOut_script (s : State) (b : Byte) : (s.setCsOut b).script = s.script := rfl
@[simp] theorem State.setCsOut_reply (s : State) (b : Byte) : (s.setCsOut b).reply = s.reply := rfl
@[simp] theorem State.setCsOut_resets (s : State) (b : Byte) : (s.setCsOut b).resets = s.resets := rfl

/-! ### setFlen -/

@[simp] theorem State.setFlen_status (s : State) (n : Nat) : (s.setFlen n).status = s.status := rfl
@[simp] theorem State.setFlen_fcap (s : State) (n : Nat) : (s.setFlen n).fcap = s.fcap := rfl
@[simp] theorem State.setFlen_flen (s : State) (n : Nat) : (s.setFlen n).flen = BitVec.ofNat 16 n := rfl
@[simp] theorem State.setFlen_csBase (s : State) (n : Nat) : (s.setFlen n).csBase = s.csBase := rfl
@[simp] theorem State.setFlen_csLen (s : State) (n : Nat) : (s.setFlen n).csLen = s.csLen := rfl
@[simp] theorem State.setFlen_csIn (s : State) (n : Nat) : (s.setFlen n).csIn = s.csIn := rfl
@[simp] theorem State.setFlen_csOut (s : State) (n : Nat) : (s.setFlen n).csOut = s.csOut := rfl
@[simp] theorem State.setFlen_txNetfn (s : State) (n : Nat) : (s.setFlen n).txNetfn = s.txNetfn := rfl
@[simp] theorem State.setFlen_txCmd (s : State) (n : Nat) : (s.setFlen n).txCmd = s.txCmd := rfl
@[simp] theorem State.setFlen_txSeq (s : State) (n : Nat) : (s.setFlen n).txSeq = s.txSeq := rfl
@[simp] theorem State.setFlen_txPlen (s : State) (n : Nat) : (s.setFlen n).txPlen = s.txPlen := rfl
@[simp] theorem State.setFlen_rxNetfn (s : State) (n : Nat) : (s.setFlen n).rxNetfn = s.rxNetfn := rfl
@[simp] theorem State.setFlen_rxCmd (s : State) (n : Nat) : (s.setFlen n).rxCmd = s.rxCmd := rfl
@[simp] theorem State.setFlen_rxSeq (s : State) (n : Nat) : (s.setFlen n).rxSeq = s.rxSeq := rfl
@[simp] theorem State.setFlen_rxPlen (s : State) (n : Nat) : (s.setFlen n).rxPlen = s.rxPlen := rfl
@[simp] theorem State.setFlen_rxTlun (s : State) (n : Nat) : (s.setFlen n).rxTlun = s.rxTlun := rfl
@[simp] theorem State.setFlen_rxSlun (s : State) (n : Nat) : (s.setFlen n).rxSlun = s.rxSlun := rfl
@[simp] theorem State.setFlen_mem (s : State) (n : Nat) : (s.setFlen n).mem = s.mem := rfl
@[simp] theorem State.setFlen_script (s : State) (n : Nat) : (s.setFlen n).script = s.script := rfl
@[simp] theorem State.setFlen_reply (s : State) (n : Nat) : (s.setFlen n).reply = s.reply := rfl
@[simp] theorem State.setFlen_resets (s : State) (n : Nat) : (s.setFlen n).resets = s.resets := rfl

/-! ### setMessage -/

@[simp] theorem State.setMessage_status (s : State) (f : BitVec 6) (c : Byte) (q : BitVec 6) (n : Nat) (x y : BitVec 2) : (s.setMessage f c q n x y).status = s.status := rfl
@[simp] theorem State.setMessage_fcap (s : State) (f : BitVec 6) (c : Byte) (q : BitVec 6) (n : Nat) (x y : BitVec 2) : (s.setMessage f c q n x y).fcap = s.fcap := rfl
@[simp] theorem State.setMessage_flen (s : State) (f : BitVec 6) (c : Byte) (q : BitVec 6) (n : Nat) (x y : BitVec 2) : (s.setMessage f c q n x y).flen = s.flen := rfl
@[simp] theorem State.setMessage_csBase (s : State) (f : BitVec 6) (c : Byte) (q : BitVec 6) (n : Nat) (x y : BitVec 2) : (s.setMessage f c q n x y).csBase = s.csBase := rfl
@[simp] theorem State.setMessage_csLen (s : State) (f : BitVec 6) (c : Byte) (q : BitVec 6) (n : Nat) (x y : BitVec 2) : (s.setMessage f c q n x y).csLen = s.csLen := rfl
@[simp] theorem State.setMessage_csIn (s : State) (f : BitVec 6) (c : Byte) (q : BitVec 6) (n : Nat) (x y : BitVec 2) : (s.setMessage f c q n x y).csIn = s.csIn := rfl
@[simp] theorem State.setMessage_csOut (s : State) (f : BitVec 6) (c : Byte) (q : BitVec 6) (n : Nat) (x y : BitVec 2) : (s.setMessage f c q n x y).csOut = s.csOut := rfl
@[simp] theorem State.setMessage_txNetfn (s : State) (f : BitVec 6) (c : Byte) (q : BitVec 6) (n : Nat) (x y : BitVec 2) : (s.setMessage f c q n x y).txNetfn = s.txNetfn := rfl
@[simp] theorem State.setMessage_txCmd (s : State) (f : BitVec 6) (c : Byte) (q : BitVec 6) (n : Nat) (x y : BitVec 2) : (s.setMessage f c q n x y).txCmd = s.txCmd := rfl
@[simp] theorem State.setMessage_txSeq (s : State) (f : BitVec 6) (c : Byte) (q : BitVec 6) (n : Nat) (x y : BitVec 2) : (s.setMessage f c q n x y).txSeq = s.txSeq := rfl
@[simp] theorem State.setMessage_txPlen (s : State) (f : BitVec 6) (c : Byte) (q : BitVec 6) (n : Nat) (x y : BitVec 2) : (s.setMessage f c q n x y).txPlen = s.txPlen := rfl
@[simp] theorem State.setMessage_rxNetfn (s : State) (f : BitVec 6) (c : Byte) (q : BitVec 6) (n : Nat) (x y : BitVec 2) : (s.setMessage f c q n x y).rxNetfn = f := rfl
@[simp] theorem State.setMessage_rxCmd (s : State) (f : BitVec 6) (c : Byte) (q : BitVec 6) (n : Nat) (x y : BitVec 2) : (s.setMessage f c q n x y).rxCmd = c := rfl
@[simp] theorem State.setMessage_rxSeq (s : State) (f : BitVec 6) (c : Byte) (q : BitVec 6) (n : Nat) (x y : BitVec 2) : (s.setMessage f c q n x y).rxSeq = q := rfl
@[simp] theorem State.setMessage_rxPlen (s : State) (f : BitVec 6) (c : Byte) (q : BitVec 6) (n : Nat) (x y : BitVec 2) : (s.setMessage f c q n x y).rxPlen = BitVec.ofNat 9 n := rfl
@[simp] theorem State.setMessage_rxTlun (s : State) (f : BitVec 6) (c : Byte) (q : BitVec 6) (n : Nat) (x y : BitVec 2) : (s.setMessage f c q n x y).rxTlun = x := rfl
@[simp] theorem State.setMessage_rxSlun (s : State) (f : BitVec 6) (c : Byte) (q : BitVec 6) (n : Nat) (x y : BitVec 2) : (s.setMessage f c q n x y).rxSlun = y := rfl
@[simp] theorem State.setMessage_mem (s : State) (f : BitVec 6) (c : Byte) (q : BitVec 6) (n : Nat) (x y : BitVec 2) : (s.setMessage f c q n x y).mem = s.mem := rfl
@[simp] theorem State.setMessage_script (s : State) (f : BitVec 6) (c : Byte) (q : BitVec 6) (n : Nat) (x y : BitVec 2) : (s.setMessage f c q n x y).script = s.script := rfl
@[simp] theorem State.setMessage_reply (s : State) (f : BitVec 6) (c : Byte) (q : BitVec 6) (n : Nat) (x y : BitVec 2) : (s.setMessage f c q n x y).reply = s.reply := rfl
@[simp] theorem State.setMessage_resets (s : State) (f : BitVec 6) (c : Byte) (q : BitVec 6) (n : Nat) (x y : BitVec 2) : (s.setMessage f c q n x y).resets = s.resets := rfl

/-! ### setReply -/

@[simp] theorem State.setReply_status (s : State) (r : Reply) : (s.setReply r).status = s.status := rfl
@[simp] theorem State.setReply_fcap (s : State) (r : Reply) : (s.setReply r).fcap = s.fcap := rfl
@[simp] theorem State.setReply_flen (s : State) (r : Reply) : (s.setReply r).flen = s.flen := rfl
@[simp] theorem State.setReply_csBase (s : State) (r : Reply) : (s.setReply r).csBase = s.csBase := rfl
@[simp] theorem State.setReply_csLen (s : State) (r : Reply) : (s.setReply r).csLen = s.csLen := rfl
@[simp] theorem State.setReply_csIn (s : State) (r : Reply) : (s.setReply r).csIn = s.csIn := rfl
@[simp] theorem State.setReply_csOut (s : State) (r : Reply) : (s.setReply r).csOut = s.csOut := rfl
@[simp] theorem State.setReply_txNetfn (s : State) (r : Reply) : (s.setReply r).txNetfn = s.txNetfn := rfl
@[simp] theorem State.setReply_txCmd (s : State) (r : Reply) : (s.setReply r).txCmd = s.txCmd := rfl
@[simp] theorem State.setReply_txSeq (s : State) (r : Reply) : (s.setReply r).txSeq = s.txSeq := rfl
@[simp] theorem State.setReply_txPlen (s : State) (r : Reply) : (s.setReply r).txPlen = s.txPlen := rfl
@[simp] theorem State.setReply_rxNetfn (s : State) (r : Reply) : (s.setReply r).rxNetfn = s.rxNetfn := rfl
@[simp] theorem State.setReply_rxCmd (s : State) (r : Reply) : (s.setReply r).rxCmd = s.rxCmd := rfl
@[simp] theorem State.setReply_rxSeq (s : State) (r : Reply) : (s.setReply r).rxSeq = s.rxSeq := rfl
@[simp] theorem State.setReply_rxPlen (s : State) (r : Reply) : (s.setReply r).rxPlen = s.rxPlen := rfl
@[simp] theorem State.setReply_rxTlun (s : State) (r : Reply) : (s.setReply r).rxTlun = s.rxTlun := rfl
@[simp] theorem State.setReply_rxSlun (s : State) (r : Reply) : (s.setReply r).rxSlun = s.rxSlun := rfl
@[simp] theorem State.setReply_mem (s : State) (r : Reply) : (s.setReply r).mem = s.mem := rfl
@[simp] theorem State.setReply_script (s : State) (r : Reply) : (s.setReply r).script = s.script := rfl
@[simp] theorem State.setReply_reply (s : State) (r : Reply) : (s.setReply r).reply = some r := rfl
@[simp] theorem State.setReply_resets (s : State) (r : Reply) : (s.setReply r).resets = s.resets := rfl

/-! ### writeByte -/

@[simp] theorem State.writeByte_status (s : State) (a : Nat) (b : Byte) : (s.writeByte a b).status = s.status := rfl
@[simp] theorem State.writeByte_fcap (s : State) (a : Nat) (b : Byte) : (s.writeByte a b).fcap = s.fcap := rfl
@[simp] theorem State.writeByte_flen (s : State) (a : Nat) (b : Byte) : (s.writeByte a b).flen = s.flen := rfl
@[simp] theorem State.writeByte_csBase (s : State) (a : Nat) (b : Byte) : (s.writeByte a b).csBase = s.csBase := rfl
@[simp] theorem State.writeByte_csLen (s : State) (a : Nat) (b : Byte) : (s.writeByte a b).csLen = s.csLen := rfl
@[simp] theorem State.writeByte_csIn (s : State) (a : Nat) (b : Byte) : (s.writeByte a b).csIn = s.csIn := rfl
@[simp] theorem State.writeByte_csOut (s : State) (a : Nat) (b : Byte) : (s.writeByte a b).csOut = s.csOut := rfl
@[simp] theorem State.writeByte_txNetfn (s : State) (a : Nat) (b : Byte) : (s.writeByte a b).txNetfn = s.txNetfn := rfl
@[simp] theorem State.writeByte_txCmd (s : State) (a : Nat) (b : Byte) : (s.writeByte a b).txCmd = s.txCmd := rfl
@[simp] theorem State.writeByte_txSeq (s : State) (a : Nat) (b : Byte) : (s.writeByte a b).txSeq = s.txSeq := rfl
@[simp] theorem State.writeByte_txPlen (s : State) (a : Nat) (b : Byte) : (s.writeByte a b).txPlen = s.txPlen := rfl
@[simp] theorem State.writeByte_rxNetfn (s : State) (a : Nat) (b : Byte) : (s.writeByte a b).rxNetfn = s.rxNetfn := rfl
@[simp] theorem State.writeByte_rxCmd (s : State) (a : Nat) (b : Byte) : (s.writeByte a b).rxCmd = s.rxCmd := rfl
@[simp] theorem State.writeByte_rxSeq (s : State) (a : Nat) (b : Byte) : (s.writeByte a b).rxSeq = s.rxSeq := rfl
@[simp] theorem State.writeByte_rxPlen (s : State) (a : Nat) (b : Byte) : (s.writeByte a b).rxPlen = s.rxPlen := rfl
@[simp] theorem State.writeByte_rxTlun (s : State) (a : Nat) (b : Byte) : (s.writeByte a b).rxTlun = s.rxTlun := rfl
@[simp] theorem State.writeByte_rxSlun (s : State) (a : Nat) (b : Byte) : (s.writeByte a b).rxSlun = s.rxSlun := rfl
@[simp] theorem State.writeByte_mem (s : State) (a : Nat) (b : Byte) : (s.writeByte a b).mem = Memory.write s.mem a b := rfl
@[simp] theorem State.writeByte_script (s : State) (a : Nat) (b : Byte) : (s.writeByte a b).script = s.script := rfl
@[simp] theorem State.writeByte_reply (s : State) (a : Nat) (b : Byte) : (s.writeByte a b).reply = s.reply := rfl
@[simp] theorem State.writeByte_resets (s : State) (a : Nat) (b : Byte) : (s.writeByte a b).resets = s.resets := rfl

/-! ### writeBytes -/

@[simp] theorem State.writeBytes_status (s : State) (a : Nat) (bs : List Byte) : (s.writeBytes a bs).status = s.status := rfl
@[simp] theorem State.writeBytes_fcap (s : State) (a : Nat) (bs : List Byte) : (s.writeBytes a bs).fcap = s.fcap := rfl
@[simp] theorem State.writeBytes_flen (s : State) (a : Nat) (bs : List Byte) : (s.writeBytes a bs).flen = s.flen := rfl
@[simp] theorem State.writeBytes_csBase (s : State) (a : Nat) (bs : List Byte) : (s.writeBytes a bs).csBase = s.csBase := rfl
@[simp] theorem State.writeBytes_csLen (s : State) (a : Nat) (bs : List Byte) : (s.writeBytes a bs).csLen = s.csLen := rfl
@[simp] theorem State.writeBytes_csIn (s : State) (a : Nat) (bs : List Byte) : (s.writeBytes a bs).csIn = s.csIn := rfl
@[simp] theorem State.writeBytes_csOut (s : State) (a : Nat) (bs : List Byte) : (s.writeBytes a bs).csOut = s.csOut := rfl
@[simp] theorem State.writeBytes_txNetfn (s : State) (a : Nat) (bs : List Byte) : (s.writeBytes a bs).txNetfn = s.txNetfn := rfl
@[simp] theorem State.writeBytes_txCmd (s : State) (a : Nat) (bs : List Byte) : (s.writeBytes a bs).txCmd = s.txCmd := rfl
@[simp] theorem State.writeBytes_txSeq (s : State) (a : Nat) (bs : List Byte) : (s.writeBytes a bs).txSeq = s.txSeq := rfl
@[simp] theorem State.writeBytes_txPlen (s : State) (a : Nat) (bs : List Byte) : (s.writeBytes a bs).txPlen = s.txPlen := rfl
@[simp] theorem State.writeBytes_rxNetfn (s : State) (a : Nat) (bs : List Byte) : (s.writeBytes a bs).rxNetfn = s.rxNetfn := rfl
@[simp] theorem State.writeBytes_rxCmd (s : State) (a : Nat) (bs : List Byte) : (s.writeBytes a bs).rxCmd = s.rxCmd := rfl
@[simp] theorem State.writeBytes_rxSeq (s : State) (a : Nat) (bs : List Byte) : (s.writeBytes a bs).rxSeq = s.rxSeq := rfl
@[simp] theorem State.writeBytes_rxPlen (s : State) (a : Nat) (bs : List Byte) : (s.writeBytes a bs).rxPlen = s.rxPlen := rfl
@[simp] theorem State.writeBytes_rxTlun (s : State) (a : Nat) (bs : List Byte) : (s.writeBytes a bs).rxTlun = s.rxTlun := rfl
@[simp] theorem State.writeBytes_rxSlun (s : State) (a : Nat) (bs : List Byte) : (s.writeBytes a bs).rxSlun = s.rxSlun := rfl
@[simp] theorem State.writeBytes_mem (s : State) (a : Nat) (bs : List Byte) : (s.writeBytes a bs).mem = Memory.writeList s.mem a bs := rfl
@[simp] theorem State.writeBytes_script (s : State) (a : Nat) (bs : List Byte) : (s.writeBytes a bs).script = s.script := rfl
@[simp] theorem State.writeBytes_reply (s : State) (a : Nat) (bs : List Byte) : (s.writeBytes a bs).reply = s.reply := rfl
@[simp] theorem State.writeBytes_resets (s : State) (a : Nat) (bs : List Byte) : (s.writeBytes a bs).resets = s.resets := rfl

/-! ### pushAction -/

@[simp] theorem State.pushAction_status (s : State) (w : ActionWord) : (s.pushAction w).status = s.status := rfl
@[simp] theorem State.pushAction_fcap (s : State) (w : ActionWord) : (s.pushAction w).fcap = s.fcap := rfl
@[simp] theorem State.pushAction_flen (s : State) (w : ActionWord) : (s.pushAction w).flen = s.flen := rfl
@[simp] theorem State.pushAction_csBase (s : State) (w : ActionWord) : (s.pushAction w).csBase = s.csBase := rfl
@[simp] theorem State.pushAction_csLen (s : State) (w : ActionWord) : (s.pushAction w).csLen = s.csLen := rfl
@[simp] theorem State.pushAction_csIn (s : State) (w : ActionWord) : (s.pushAction w).csIn = s.csIn := rfl
@[simp] theorem State.pushAction_csOut (s : State) (w : ActionWord) : (s.pushAction w).csOut = s.csOut := rfl
@[simp] theorem State.pushAction_txNetfn (s : State) (w : ActionWord) : (s.pushAction w).txNetfn = s.txNetfn := rfl
@[simp] theorem State.pushAction_txCmd (s : State) (w : ActionWord) : (s.pushAction w).txCmd = s.txCmd := rfl
@[simp] theorem State.pushAction_txSeq (s : State) (w : ActionWord) : (s.pushAction w).txSeq = s.txSeq := rfl
@[simp] theorem State.pushAction_txPlen (s : State) (w : ActionWord) : (s.pushAction w).txPlen = s.txPlen := rfl
@[simp] theorem State.pushAction_rxNetfn (s : State) (w : ActionWord) : (s.pushAction w).rxNetfn = s.rxNetfn := rfl
@[simp] theorem State.pushAction_rxCmd (s : State) (w : ActionWord) : (s.pushAction w).rxCmd = s.rxCmd := rfl
@[simp] theorem State.pushAction_rxSeq (s : State) (w : ActionWord) : (s.pushAction w).rxSeq = s.rxSeq := rfl
@[simp] theorem State.pushAction_rxPlen (s : State) (w : ActionWord) : (s.pushAction w).rxPlen = s.rxPlen := rfl
@[simp] theorem State.pushAction_rxTlun (s : State) (w : ActionWord) : (s.pushAction w).rxTlun = s.rxTlun := rfl
@[simp] theorem State.pushAction_rxSlun (s : State) (w : ActionWord) : (s.pushAction w).rxSlun = s.rxSlun := rfl
@[simp] theorem State.pushAction_mem (s : State) (w : ActionWord) : (s.pushAction w).mem = s.mem := rfl
@[simp] theorem State.pushAction_script (s : State) (w : ActionWord) : (s.pushAction w).script = .action w :: s.script := rfl
@[simp] theorem State.pushAction_reply (s : State) (w : ActionWord) : (s.pushAction w).reply = s.reply := rfl
@[simp] theorem State.pushAction_resets (s : State) (w : ActionWord) : (s.pushAction w).resets = s.resets := rfl

/-! ### applyReset -/

@[simp] theorem State.applyReset_status (s : State) : s.applyReset.status = State.reset.status := rfl
@[simp] theorem State.applyReset_fcap (s : State) : s.applyReset.fcap = State.reset.fcap := rfl
@[simp] theorem State.applyReset_flen (s : State) : s.applyReset.flen = State.reset.flen := rfl
@[simp] theorem State.applyReset_csBase (s : State) : s.applyReset.csBase = State.reset.csBase := rfl
@[simp] theorem State.applyReset_csLen (s : State) : s.applyReset.csLen = State.reset.csLen := rfl
@[simp] theorem State.applyReset_csIn (s : State) : s.applyReset.csIn = State.reset.csIn := rfl
@[simp] theorem State.applyReset_csOut (s : State) : s.applyReset.csOut = State.reset.csOut := rfl
@[simp] theorem State.applyReset_txNetfn (s : State) : s.applyReset.txNetfn = State.reset.txNetfn := rfl
@[simp] theorem State.applyReset_txCmd (s : State) : s.applyReset.txCmd = State.reset.txCmd := rfl
@[simp] theorem State.applyReset_txSeq (s : State) : s.applyReset.txSeq = State.reset.txSeq := rfl
@[simp] theorem State.applyReset_txPlen (s : State) : s.applyReset.txPlen = State.reset.txPlen := rfl
@[simp] theorem State.applyReset_rxNetfn (s : State) : s.applyReset.rxNetfn = State.reset.rxNetfn := rfl
@[simp] theorem State.applyReset_rxCmd (s : State) : s.applyReset.rxCmd = State.reset.rxCmd := rfl
@[simp] theorem State.applyReset_rxSeq (s : State) : s.applyReset.rxSeq = State.reset.rxSeq := rfl
@[simp] theorem State.applyReset_rxPlen (s : State) : s.applyReset.rxPlen = State.reset.rxPlen := rfl
@[simp] theorem State.applyReset_rxTlun (s : State) : s.applyReset.rxTlun = State.reset.rxTlun := rfl
@[simp] theorem State.applyReset_rxSlun (s : State) : s.applyReset.rxSlun = State.reset.rxSlun := rfl
@[simp] theorem State.applyReset_mem (s : State) : s.applyReset.mem = State.reset.mem := rfl
@[simp] theorem State.applyReset_script (s : State) : s.applyReset.script = s.script := rfl
@[simp] theorem State.applyReset_reply (s : State) : s.applyReset.reply = s.reply := rfl
@[simp] theorem State.applyReset_resets (s : State) : s.applyReset.resets = s.resets + 1 := rfl

/-! ### writeReg: the fields that no register write reaches, and the one it does -/

@[simp] theorem State.writeReg_status (s : State) (reg : Reg) (v : HostWord) : (s.writeReg reg v).status = s.status := by
  cases reg <;> rfl

@[simp] theorem State.writeReg_csOut (s : State) (reg : Reg) (v : HostWord) : (s.writeReg reg v).csOut = s.csOut := by
  cases reg <;> rfl

@[simp] theorem State.writeReg_rxNetfn (s : State) (reg : Reg) (v : HostWord) : (s.writeReg reg v).rxNetfn = s.rxNetfn := by
  cases reg <;> rfl

@[simp] theorem State.writeReg_rxCmd (s : State) (reg : Reg) (v : HostWord) : (s.writeReg reg v).rxCmd = s.rxCmd := by
  cases reg <;> rfl

@[simp] theorem State.writeReg_rxSeq (s : State) (reg : Reg) (v : HostWord) : (s.writeReg reg v).rxSeq = s.rxSeq := by
  cases reg <;> rfl

@[simp] theorem State.writeReg_rxPlen (s : State) (reg : Reg) (v : HostWord) : (s.writeReg reg v).rxPlen = s.rxPlen := by
  cases reg <;> rfl

@[simp] theorem State.writeReg_rxTlun (s : State) (reg : Reg) (v : HostWord) : (s.writeReg reg v).rxTlun = s.rxTlun := by
  cases reg <;> rfl

@[simp] theorem State.writeReg_rxSlun (s : State) (reg : Reg) (v : HostWord) : (s.writeReg reg v).rxSlun = s.rxSlun := by
  cases reg <;> rfl

@[simp] theorem State.writeReg_mem (s : State) (reg : Reg) (v : HostWord) : (s.writeReg reg v).mem = s.mem := by
  cases reg <;> rfl

@[simp] theorem State.writeReg_script (s : State) (reg : Reg) (v : HostWord) : (s.writeReg reg v).script = s.script := by
  cases reg <;> rfl

@[simp] theorem State.writeReg_reply (s : State) (reg : Reg) (v : HostWord) : (s.writeReg reg v).reply = s.reply := by
  cases reg <;> rfl

@[simp] theorem State.writeReg_resets (s : State) (reg : Reg) (v : HostWord) : (s.writeReg reg v).resets = s.resets := by
  cases reg <;> rfl

theorem State.writeReg_fcap (s : State) (reg : Reg) (v : HostWord) :
    (s.writeReg reg v).fcap = if reg = .fcap then v.setWidth 16 else s.fcap := by
  cases reg <;> rfl

theorem State.writeReg_flen (s : State) (reg : Reg) (v : HostWord) :
    (s.writeReg reg v).flen = if reg = .flen then v.setWidth 16 else s.flen := by
  cases reg <;> rfl

theorem State.writeReg_csBase (s : State) (reg : Reg) (v : HostWord) :
    (s.writeReg reg v).csBase = if reg = .csBase then v.setWidth 16 else s.csBase := by
  cases reg <;> rfl

theorem State.writeReg_csLen (s : State) (reg : Reg) (v : HostWord) :
    (s.writeReg reg v).csLen = if reg = .csLen then v.setWidth 16 else s.csLen := by
  cases reg <;> rfl

theorem State.writeReg_csIn (s : State) (reg : Reg) (v : HostWord) :
    (s.writeReg reg v).csIn = if reg = .csIn then v.setWidth 8 else s.csIn := by
  cases reg <;> rfl

theorem State.writeReg_txNetfn (s : State) (reg : Reg) (v : HostWord) :
    (s.writeReg reg v).txNetfn = if reg = .txNetfn then v.setWidth 8 else s.txNetfn := by
  cases reg <;> rfl

theorem State.writeReg_txCmd (s : State) (reg : Reg) (v : HostWord) :
    (s.writeReg reg v).txCmd = if reg = .txCmd then v.setWidth 8 else s.txCmd := by
  cases reg <;> rfl

theorem State.writeReg_txSeq (s : State) (reg : Reg) (v : HostWord) :
    (s.writeReg reg v).txSeq = if reg = .txSeq then v else s.txSeq := by
  cases reg <;> rfl

theorem State.writeReg_txPlen (s : State) (reg : Reg) (v : HostWord) :
    (s.writeReg reg v).txPlen = if reg = .txPlen then v.setWidth 16 else s.txPlen := by
  cases reg <;> rfl

end Sys2Proof.Machine
end

