-- ==== Sys2Proof/Laws/Memory.lean ====
section
/-! SUPPORT. The laws of the buffer space: a read after a write, the canonical form, and that equal memories are equal
lists. -/

namespace Sys2Proof.Machine

/-! ### One byte -/

@[simp] theorem Memory.lookup_nil (a : Nat) : Memory.lookup [] a = none := rfl

theorem Memory.lookup_cons (x : Nat) (y : Byte) (m : Memory) (a : Nat) :
    Memory.lookup ((x, y) :: m) a = if a = x then some y else Memory.lookup m a := rfl

theorem Memory.lookup_write_same (m : Memory) (a : Nat) (b : Byte) : Memory.lookup (Memory.write m a b) a = some b := by
  induction m with
  | nil => simp [Memory.write, Memory.lookup]
  | cons c m ih =>
    obtain ⟨x, y⟩ := c
    simp only [Memory.write]
    split
    · simp [Memory.lookup]
    · split
      · simp [Memory.lookup]
      · simp [Memory.lookup, *]

theorem Memory.lookup_write_ne (m : Memory) {a x : Nat} (b : Byte) (h : x ≠ a) :
    Memory.lookup (Memory.write m a b) x = Memory.lookup m x := by
  induction m with
  | nil => simp [Memory.write, Memory.lookup, h]
  | cons c m ih =>
    obtain ⟨k, y⟩ := c
    simp only [Memory.write]
    split
    · simp [Memory.lookup, h]
    · split
      · subst_vars; simp [Memory.lookup, h]
      · simp [Memory.lookup, ih]

/-- Reading one byte after writing one byte. -/
theorem Memory.lookup_write (m : Memory) (a : Nat) (b : Byte) (x : Nat) :
    Memory.lookup (Memory.write m a b) x = if x = a then some b else Memory.lookup m x := by
  split
  · subst_vars; exact Memory.lookup_write_same m _ b
  · exact Memory.lookup_write_ne m b ‹_›

/-! ### A list of bytes -/

@[simp] theorem Memory.writeList_nil (m : Memory) (a : Nat) : Memory.writeList m a [] = m := by
  cases m <;> rfl

theorem Memory.writeList_cons (m : Memory) (a : Nat) (b : Byte) (bs : List Byte) :
    Memory.writeList m a (b :: bs) = Memory.writeList (Memory.write m a b) (a + 1) bs := by
  cases m <;> rfl

/-- Reading one byte after writing a list of bytes at `a`. -/
theorem Memory.lookup_writeList (m : Memory) (a : Nat) (bs : List Byte) (x : Nat) :
    Memory.lookup (Memory.writeList m a bs) x =
      if a ≤ x ∧ x < a + bs.length then bs[x - a]? else Memory.lookup m x := by
  induction bs generalizing m a with
  | nil => rw [Memory.writeList_nil, if_neg (by simp)]
  | cons b bs ih =>
    rw [Memory.writeList_cons, ih, Memory.lookup_write]
    rcases Nat.lt_trichotomy x a with h | rfl | h
    · rw [if_neg (by omega), if_neg (by omega), if_neg (by simp; omega)]
    · rw [if_neg (by omega), if_pos rfl, if_pos (by simp)]; simp
    · rw [if_neg (show x ≠ a by omega)]
      have hx : x - a = (x - (a + 1)) + 1 := by omega
      rw [hx, List.getElem?_cons_succ]
      simp only [List.length_cons]
      split <;> split <;> first | rfl | omega

/-! ### The canonical form -/

/-- Every address of the list is above `a`. -/
def Memory.above (a : Nat) (m : Memory) : Prop := ∀ c ∈ m, a < c.1

theorem Memory.rising_cons (x : Nat) (y : Byte) (m : Memory) :
    Memory.rising ((x, y) :: m) = true ↔ Memory.above x m ∧ Memory.rising m = true := by
  induction m generalizing x y with
  | nil => simp [Memory.rising, Memory.above]
  | cons c m ih =>
    obtain ⟨k, z⟩ := c
    simp only [Memory.rising, Bool.and_eq_true, decide_eq_true_eq, ih]
    constructor
    · rintro ⟨hk, ha, hr⟩
      refine ⟨?_, ha, hr⟩
      intro c hc
      rcases List.mem_cons.1 hc with rfl | hc
      · exact hk
      · exact hk.trans (ha c hc)
    · rintro ⟨ha, hb, hr⟩
      exact ⟨ha _ List.mem_cons_self, hb, hr⟩

theorem Memory.above_write {x a : Nat} {m : Memory} (b : Byte) (h : Memory.above x m) (hx : x < a) :
    Memory.above x (Memory.write m a b) := by
  induction m with
  | nil => intro c hc; simp [Memory.write] at hc; simpa [hc] using hx
  | cons c m ih =>
    obtain ⟨k, z⟩ := c
    have hk : x < k := h _ List.mem_cons_self
    have hm : Memory.above x m := fun c hc => h c (List.mem_cons_of_mem _ hc)
    simp only [Memory.write]
    split
    · intro c hc
      rcases List.mem_cons.1 hc with rfl | hc
      exacts [hx, h c hc]
    · split
      · intro c hc
        rcases List.mem_cons.1 hc with rfl | hc
        exacts [hx, hm c hc]
      · intro c hc
        rcases List.mem_cons.1 hc with rfl | hc
        exacts [hk, ih hm c hc]

theorem Memory.rising_write {m : Memory} (a : Nat) (b : Byte) (h : Memory.rising m = true) :
    Memory.rising (Memory.write m a b) = true := by
  induction m with
  | nil => rfl
  | cons c m ih =>
    obtain ⟨k, z⟩ := c
    obtain ⟨ha, hr⟩ := (Memory.rising_cons k z m).1 h
    simp only [Memory.write]
    split
    · rename_i hlt
      refine (Memory.rising_cons a b _).2 ⟨?_, h⟩
      intro c hc
      rcases List.mem_cons.1 hc with rfl | hc
      exacts [hlt, Nat.lt_trans hlt (ha c hc)]
    · split
      · subst_vars; exact (Memory.rising_cons _ b m).2 ⟨ha, hr⟩
      · exact (Memory.rising_cons k z _).2 ⟨Memory.above_write b ha (by omega), ih hr⟩

theorem Memory.wf_iff (m : Memory) :
    Memory.wf m = true ↔ Memory.rising m = true ∧ ∀ c ∈ m, c.1 < bufSize := by
  simp [Memory.wf]

theorem Memory.mem_write {m : Memory} {a : Nat} {b : Byte} {c : Host.Cell} (h : c ∈ Memory.write m a b) :
    c = (a, b) ∨ c ∈ m := by
  induction m with
  | nil => simpa [Memory.write] using h
  | cons d m ih =>
    obtain ⟨k, z⟩ := d
    simp only [Memory.write] at h
    split at h
    · simpa using h
    · split at h
      · rcases List.mem_cons.1 h with h | h
        exacts [.inl h, .inr (List.mem_cons_of_mem _ h)]
      · rcases List.mem_cons.1 h with h | h
        · exact .inr (h ▸ List.mem_cons_self)
        · exact (ih h).imp id (List.mem_cons_of_mem _)

theorem Memory.wf_nil : Memory.wf [] = true := rfl

/-- A byte written inside the buffer space keeps the canonical form. -/
theorem Memory.wf_write {m : Memory} {a : Nat} (b : Byte) (h : Memory.wf m = true) (ha : a < bufSize) :
    Memory.wf (Memory.write m a b) = true := by
  rw [Memory.wf_iff] at h ⊢
  refine ⟨Memory.rising_write a b h.1, fun c hc => ?_⟩
  rcases Memory.mem_write hc with rfl | hc
  exacts [ha, h.2 c hc]

/-- Bytes written inside the buffer space keep the canonical form. -/
theorem Memory.wf_writeList {m : Memory} {a : Nat} {bs : List Byte} (h : Memory.wf m = true)
    (ha : a + bs.length ≤ bufSize) : Memory.wf (Memory.writeList m a bs) = true := by
  induction bs generalizing m a with
  | nil => rwa [Memory.writeList_nil]
  | cons b bs ih =>
    rw [Memory.writeList_cons]
    simp only [List.length_cons] at ha
    exact ih (Memory.wf_write b h (by omega)) (by omega)

theorem State.reset_mem_wf : Memory.wf State.reset.mem = true := rfl

/-! ### Equal memories are equal lists -/

theorem Memory.lookup_of_above {x a : Nat} {m : Memory} (h : Memory.above x m) (ha : a ≤ x) :
    Memory.lookup m a = none := by
  induction m with
  | nil => rfl
  | cons c m ih =>
    obtain ⟨k, z⟩ := c
    have hk : x < k := h _ List.mem_cons_self
    rw [Memory.lookup_cons, if_neg (by omega)]
    exact ih fun c hc => h c (List.mem_cons_of_mem _ hc)

/-- Two lists in canonical form that hold the same byte at every address are the same list. -/
theorem Memory.eq_of_lookup_eq {m m' : Memory} (h : Memory.rising m = true) (h' : Memory.rising m' = true)
    (heq : ∀ a, Memory.lookup m a = Memory.lookup m' a) : m = m' := by
  induction m generalizing m' with
  | nil =>
    cases m' with
    | nil => rfl
    | cons c m' =>
      have := heq c.1
      simp [Memory.lookup] at this
  | cons c m ih =>
    obtain ⟨k, z⟩ := c
    obtain ⟨ha, hr⟩ := (Memory.rising_cons k z m).1 h
    cases m' with
    | nil =>
      have := heq k
      simp [Memory.lookup] at this
    | cons c' m' =>
      obtain ⟨k', z'⟩ := c'
      obtain ⟨ha', hr'⟩ := (Memory.rising_cons k' z' m').1 h'
      have hkk : k = k' := by
        rcases Nat.lt_trichotomy k k' with hlt | heq' | hlt
        · have := heq k
          rw [Memory.lookup_cons, if_pos rfl, Memory.lookup_cons, if_neg (by omega),
            Memory.lookup_of_above ha' (by omega)] at this
          cases this
        · exact heq'
        · have := heq k'
          rw [Memory.lookup_cons, if_neg (by omega), Memory.lookup_of_above ha (by omega), Memory.lookup_cons,
            if_pos rfl] at this
          cases this
      subst hkk
      have hz : z = z' := by
        have := heq k
        simpa [Memory.lookup] using this
      subst hz
      rw [ih hr hr' fun a => ?_]
      by_cases hak : a ≤ k
      · rw [Memory.lookup_of_above ha hak, Memory.lookup_of_above ha' hak]
      · have := heq a
        rwa [Memory.lookup_cons, Memory.lookup_cons, if_neg (by omega), if_neg (by omega)] at this

/-! ### The same through MemRead and MemWrite -/

theorem State.readByte_writeByte (s : State) (a : Nat) (b : Byte) (x : Nat) :
    (s.writeByte a b).readByte x = if x = a then b else s.readByte x := by
  simp only [State.readByte, State.writeByte_mem, State.writeByte_resets, Memory.lookup_write]
  split <;> rfl

theorem State.readByte_writeBytes (s : State) (a : Nat) (bs : List Byte) (x : Nat) :
    (s.writeBytes a bs).readByte x =
      if a ≤ x ∧ x < a + bs.length then bs.getD (x - a) 0 else s.readByte x := by
  simp only [State.readByte, State.writeBytes_mem, State.writeBytes_resets, Memory.lookup_writeList]
  split
  · rename_i h
    rw [List.getD_eq_getElem?_getD, List.getElem?_eq_getElem (by omega)]
    rfl
  · rfl

/-- A read depends on the buffer space and the count of resets only. -/
theorem State.readByte_congr {s t : State} (hm : t.mem = s.mem) (hr : t.resets = s.resets) (a : Nat) :
    t.readByte a = s.readByte a := by simp [State.readByte, hm, hr]

theorem State.readBytes_congr {s t : State} {a a' n : Nat} (h : ∀ i < n, t.readByte (a + i) = s.readByte (a' + i)) :
    t.readBytes a n = s.readBytes a' n := by
  unfold State.readBytes
  exact List.map_congr_left fun i hi => h i (List.mem_range.1 hi)

@[simp] theorem State.readBytes_length (s : State) (a n : Nat) : (s.readBytes a n).length = n := by
  simp [State.readBytes]

theorem State.readBytes_getD (s : State) (a : Nat) {n i : Nat} (h : i < n) :
    (s.readBytes a n).getD i 0 = s.readByte (a + i) := by
  simp [State.readBytes, List.getD_eq_getElem?_getD, h]

@[simp] theorem State.setStatus_readByte (s : State) (st : BitVec 10) (a : Nat) :
    (s.setStatus st).readByte a = s.readByte a := rfl

@[simp] theorem State.setCsOut_readByte (s : State) (b : Byte) (a : Nat) :
    (s.setCsOut b).readByte a = s.readByte a := rfl

@[simp] theorem State.setFlen_readByte (s : State) (n a : Nat) : (s.setFlen n).readByte a = s.readByte a := rfl

@[simp] theorem State.setReply_readByte (s : State) (r : Reply) (a : Nat) :
    (s.setReply r).readByte a = s.readByte a := rfl

@[simp] theorem State.setMessage_readByte (s : State) (f : BitVec 6) (c : Byte) (q : BitVec 6) (n : Nat)
    (x y : BitVec 2) (a : Nat) : (s.setMessage f c q n x y).readByte a = s.readByte a := rfl

@[simp] theorem State.pushAction_readByte (s : State) (w : ActionWord) (a : Nat) :
    (s.pushAction w).readByte a = s.readByte a := rfl

@[simp] theorem State.writeReg_readByte (s : State) (reg : Reg) (v : HostWord) (a : Nat) :
    (s.writeReg reg v).readByte a = s.readByte a := by
  simp [State.readByte]

/-- Writing the same bytes to the same place again changes nothing. -/
theorem Memory.writeList_writeList {m : Memory} {a : Nat} {bs : List Byte} (h : Memory.wf m = true)
    (hb : a + bs.length ≤ 1024) :
    Memory.writeList (Memory.writeList m a bs) a bs = Memory.writeList m a bs := by
  have h1 := Memory.wf_writeList h hb
  have h2 := Memory.wf_writeList h1 hb
  apply Memory.eq_of_lookup_eq ((Memory.wf_iff _).1 h2).1 ((Memory.wf_iff _).1 h1).1
  intro x
  rw [Memory.lookup_writeList]
  split
  · rename_i hx; rw [Memory.lookup_writeList, if_pos hx]
  · rfl

end Sys2Proof.Machine
end

