-- ==== Sys2Proof/Laws/Ops.lean ====
section
/-! SUPPORT. What each shared operation and each meaning can answer, said once; the proofs cite these lemmas and do not
unfold the operations. -/

namespace Sys2Proof.Machine

/-! ### How an operation ends -/

theorem raise_eq (k : ErrKind) (d : Detail) (w : Bool) (s : State) :
    raise k d w s = .next (s.setStatus (statusWord k d false w)) := rfl

theorem finish_eq (v w : Bool) (s : State) : finish v w s = .next (s.setStatus (statusWord .ok .noError v w)) := rfl

@[simp] theorem statusErr_statusWord (k : ErrKind) (d : Detail) (v w : Bool) :
    statusErr (statusWord k d v w) = k.code := by
  cases k <;> cases d <;> cases v <;> cases w <;> rfl

@[simp] theorem statusDetail_statusWord (k : ErrKind) (d : Detail) (v w : Bool) :
    statusDetail (statusWord k d v w) = d.code := by
  cases k <;> cases d <;> cases v <;> cases w <;> rfl

@[simp] theorem statusVok_statusWord (k : ErrKind) (d : Detail) (v w : Bool) :
    statusVok (statusWord k d v w) = v := by
  cases k <;> cases d <;> cases v <;> cases w <;> rfl

@[simp] theorem statusAuthWarn_statusWord (k : ErrKind) (d : Detail) (v w : Bool) :
    statusAuthWarn (statusWord k d v w) = w := by
  cases k <;> cases d <;> cases v <;> cases w <;> rfl

/-! ### The checks, each with the condition it stands for -/

/-- What the range check of CSUM and VERIFY can answer (R103, R104). -/
theorem csRangeError_cases (s : State) :
    (s.csLen.toNat = 0 ∧ s.csRangeError = some .emptyRange)
    ∨ (s.csLen.toNat ≠ 0 ∧ s.csBase.toNat + s.csLen.toNat > 1024 ∧ s.csRangeError = some .rangeOob)
    ∨ (s.csLen.toNat ≠ 0 ∧ s.csBase.toNat + s.csLen.toNat ≤ 1024 ∧ s.csRangeError = none) := by
  unfold State.csRangeError bufSize
  split_ifs <;> simp_all

/-- What ENCODE's checks can answer (R121, R122, R124). -/
theorem encodeError_cases (s : State) :
    (s.txNetfn.toNat > 63 ∧ s.encodeError = some (.invalidParameter, .netfnRange))
    ∨ (s.txNetfn.toNat ≤ 63 ∧ s.txPlen.toNat > 256 ∧ s.encodeError = some (.invalidParameter, .plenRange))
    ∨ (s.txNetfn.toNat ≤ 63 ∧ 248 < s.txPlen.toNat ∧ s.txPlen.toNat ≤ 256
        ∧ s.encodeError = some (.invalidParameter, .plenWire))
    ∨ (s.txNetfn.toNat ≤ 63 ∧ s.txPlen.toNat ≤ 248 ∧ s.fcap.toNat < 21 + s.txPlen.toNat
        ∧ s.encodeError = some (.capacity, .frameCap))
    ∨ (s.txNetfn.toNat ≤ 63 ∧ s.txPlen.toNat ≤ 248 ∧ 21 + s.txPlen.toNat ≤ s.fcap.toNat ∧ s.encodeError = none) := by
  unfold State.encodeError payloadCap payloadWireMax frameOverhead
  split_ifs <;> simp_all

theorem fb_eq (s : State) (i : Nat) : s.fb i = s.readByte i := by simp [State.fb, fbBase]

theorem fbRange_eq (s : State) (i j : Nat) : s.fbRange i j = s.readBytes i (j - i) := by
  simp [State.fbRange, fbBase]

/-- The sum of a range, byte by byte. -/
theorem byteSum_readBytes (s : State) (a n : Nat) :
    byteSum (s.readBytes a n) = ((List.range n).map fun i => (s.readByte (a + i)).toNat).sum := by
  simp [byteSum, State.readBytes, Function.comp_def]

/-- What steps 0 to 2 of DECODE can answer (R141 to R144). -/
theorem decodeEarlyError_cases (s : State) :
    (s.flen.toNat > 512 ∧ s.decodeEarlyError = some (.invalidParameter, .rangeOob))
    ∨ (s.flen.toNat < 20 ∧ s.decodeEarlyError = some (.protocol, .tooShort))
    ∨ (20 ≤ s.flen.toNat ∧ s.flen.toNat ≤ 512 ∧ s.readByte 0 ≠ 0x06
        ∧ s.decodeEarlyError = some (.protocol, .badVersion))
    ∨ (20 ≤ s.flen.toNat ∧ s.flen.toNat ≤ 512 ∧ s.readByte 0 = 0x06 ∧ s.readByte 3 ≠ 0x07
        ∧ s.decodeEarlyError = some (.protocol, .badClass))
    ∨ (20 ≤ s.flen.toNat ∧ s.flen.toNat ≤ 512 ∧ s.readByte 0 = 0x06 ∧ s.readByte 3 = 0x07
        ∧ s.decodeEarlyError = none) := by
  simp only [State.decodeEarlyError, fbSize, frameMinDecode, rmcpVersion, rmcpClassIpmi, fb_eq]
  split_ifs with h0 h1 h2 h3
  · exact .inl ⟨h0, rfl⟩
  · exact .inr (.inl ⟨h1, rfl⟩)
  · exact .inr (.inr (.inl ⟨by omega, by omega, h2, rfl⟩))
  · exact .inr (.inr (.inr (.inl ⟨by omega, by omega, not_not.1 h2, h3, rfl⟩)))
  · exact .inr (.inr (.inr (.inr ⟨by omega, by omega, not_not.1 h2, not_not.1 h3, rfl⟩)))

/-- What steps 4 to 9 of DECODE can answer (R147, R148, R150, R153); PAYLOAD_TOO_LONG is not among them (R151). -/
theorem decodeLateError_cases (s : State) :
    (14 + (s.readByte 13).toNat > s.flen.toNat ∧ s.decodeLateError = some (.protocol, .bodyOverrun))
    ∨ (14 + (s.readByte 13).toNat ≤ s.flen.toNat
        ∧ ((s.readByte 14).toNat + (s.readByte 15).toNat + (s.readByte 16).toNat) % 256 ≠ 0
        ∧ s.decodeLateError = some (.protocol, .hdrCsum))
    ∨ (14 + (s.readByte 13).toNat ≤ s.flen.toNat
        ∧ ((s.readByte 14).toNat + (s.readByte 15).toNat + (s.readByte 16).toNat) % 256 = 0
        ∧ (s.readByte 13).toNat < 7 ∧ s.decodeLateError = some (.protocol, .bodyLenSmall))
    ∨ (14 + (s.readByte 13).toNat ≤ s.flen.toNat
        ∧ ((s.readByte 14).toNat + (s.readByte 15).toNat + (s.readByte 16).toNat) % 256 = 0
        ∧ 7 ≤ (s.readByte 13).toNat ∧ byteSum (s.readBytes 17 ((s.readByte 13).toNat - 3)) % 256 ≠ 0
        ∧ s.decodeLateError = some (.protocol, .dataCsum))
    ∨ (14 + (s.readByte 13).toNat ≤ s.flen.toNat
        ∧ ((s.readByte 14).toNat + (s.readByte 15).toNat + (s.readByte 16).toNat) % 256 = 0
        ∧ 7 ≤ (s.readByte 13).toNat ∧ byteSum (s.readBytes 17 ((s.readByte 13).toNat - 3)) % 256 = 0
        ∧ s.decodeLateError = none) := by
  have hb := (s.readByte 13).isLt
  have hl : 14 + (s.readByte 13).toNat - 17 = (s.readByte 13).toNat - 3 := by omega
  simp only [State.decodeLateError, State.rxPayloadLen, State.bodyLen, bodyOverhead, payloadCap, fb_eq, fbRange_eq, hl]
  split_ifs with h0 h1 h2 h3 h4
  · exact .inl ⟨h0, rfl⟩
  · exact .inr (.inl ⟨by omega, h1, rfl⟩)
  · exact .inr (.inr (.inl ⟨by omega, not_not.1 h1, h2, rfl⟩))
  · omega
  · exact .inr (.inr (.inr (.inl ⟨by omega, not_not.1 h1, by omega, h4, rfl⟩)))
  · exact .inr (.inr (.inr (.inr ⟨by omega, not_not.1 h1, by omega, not_not.1 h4, rfl⟩)))

/-- When ENCODE's checks pass (R121, R122, R124). -/
theorem encodeError_eq_none (s : State) : s.encodeError = none ↔
    s.txNetfn.toNat ≤ 63 ∧ s.txPlen.toNat ≤ 248 ∧ 21 + s.txPlen.toNat ≤ s.fcap.toNat := by
  rcases encodeError_cases s with ⟨_, e⟩ | ⟨_, _, e⟩ | ⟨_, _, _, e⟩ | ⟨_, _, _, e⟩ | ⟨_, _, _, e⟩ <;> rw [e] <;> simp <;> omega

/-- When steps 0 to 2 of DECODE pass (R141 to R144). -/
theorem decodeEarlyError_eq_none (s : State) : s.decodeEarlyError = none ↔
    20 ≤ s.flen.toNat ∧ s.flen.toNat ≤ 512 ∧ s.readByte 0 = 0x06 ∧ s.readByte 3 = 0x07 := by
  rcases decodeEarlyError_cases s with ⟨_, e⟩ | ⟨_, e⟩ | ⟨_, _, _, e⟩ | ⟨_, _, _, _, e⟩ | ⟨_, _, _, _, e⟩ <;> rw [e] <;>
    simp <;> first | omega | tauto

/-- When steps 4 to 9 of DECODE pass (R147, R148, R150, R151, R153). -/
theorem decodeLateError_eq_none (s : State) : s.decodeLateError = none ↔
    14 + (s.readByte 13).toNat ≤ s.flen.toNat
    ∧ ((s.readByte 14).toNat + (s.readByte 15).toNat + (s.readByte 16).toNat) % 256 = 0
    ∧ 7 ≤ (s.readByte 13).toNat ∧ byteSum (s.readBytes 17 ((s.readByte 13).toNat - 3)) % 256 = 0 := by
  rcases decodeLateError_cases s with ⟨_, e⟩ | ⟨_, _, e⟩ | ⟨_, _, _, e⟩ | ⟨_, _, _, _, e⟩ | ⟨_, _, _, _, e⟩ <;> rw [e] <;>
    simp <;> omega

theorem authWarn_eq (s : State) : s.authWarn = decide (s.readByte 4 ≠ 0) := by
  simp [State.authWarn, authNone, fb_eq]

/-! ### The register space -/

/-- R10: only number 0 is OP. -/
theorem ofNumber_eq_op (r : BitVec 8) : Reg.ofNumber r = some .op ↔ r = 0 := by
  revert r; decide

/-- R28: the numbers above 0x11 are reserved. -/
theorem ofNumber_eq_none (r : BitVec 8) : Reg.ofNumber r = none ↔ 0x11 < r.toNat := by
  revert r; decide

/-! ### The meanings -/

theorem execCsum_of_error {s : State} {d : Detail} (h : s.csRangeError = some d) :
    execCsum s = .next (s.setStatus (statusWord .invalidParameter d false false)) := by
  simp [execCsum, h, raise]

theorem execCsum_of_ok {s : State} (h : s.csRangeError = none) :
    execCsum s = .next ((s.setCsOut (csum8 s.csRange)).setStatus 0#10) := by
  simp only [execCsum, h, finish]; rfl

theorem execVerify_of_error {s : State} {d : Detail} (h : s.csRangeError = some d) :
    execVerify s = .next (s.setStatus (statusWord .invalidParameter d false false)) := by
  simp [execVerify, h, raise]

theorem execVerify_of_ok {s : State} (h : s.csRangeError = none) :
    execVerify s = .next (s.setStatus (statusWord .ok .noError (vsum8 s.csRange s.csIn) false)) := by
  simp [execVerify, h, finish]

theorem execEncode_of_error {s : State} {k : ErrKind} {d : Detail} (h : s.encodeError = some (k, d)) :
    execEncode s = .next (s.setStatus (statusWord k d false false)) := by
  simp [execEncode, h, raise]

theorem execEncode_of_ok {s : State} (h : s.encodeError = none) :
    execEncode s = .next (((s.writeBytes fbBase s.txFrame).setFlen (frameOverhead + s.txPlen.toNat)).setStatus 0#10) := by
  simp only [execEncode, h, finish]; rfl

theorem execDecode_of_early {s : State} {k : ErrKind} {d : Detail} (h : s.decodeEarlyError = some (k, d)) :
    execDecode s = .next (s.setStatus (statusWord k d false false)) := by
  simp [execDecode, h, raise]

theorem execDecode_of_late {s : State} {k : ErrKind} {d : Detail} (h : s.decodeEarlyError = none)
    (h' : s.decodeLateError = some (k, d)) :
    execDecode s = .next (s.setStatus (statusWord k d false s.authWarn)) := by
  simp [execDecode, h, h', raise]

theorem execDecode_of_ok {s : State} (h : s.decodeEarlyError = none) (h' : s.decodeLateError = none) :
    execDecode s = .next (s.commitMessage.setStatus (statusWord .ok .noError false s.authWarn)) := by
  simp [execDecode, h, h', finish]

/-- What a word written to OP can do (R174): one of the four operations, or BAD_OP. -/
theorem dispatchOp_cases (w : HostWord) (s : State) :
    (w = 1 ∧ dispatchOp w s = execCsum s) ∨ (w = 2 ∧ dispatchOp w s = execVerify s)
    ∨ (w = 3 ∧ dispatchOp w s = execEncode s) ∨ (w = 4 ∧ dispatchOp w s = execDecode s)
    ∨ (w ≠ 1 ∧ w ≠ 2 ∧ w ≠ 3 ∧ w ≠ 4 ∧ dispatchOp w s = .next (s.setStatus 0x009#10)) := by
  unfold dispatchOp decodeOpWord
  split_ifs with h1 h2 h3 h4
  · exact .inl ⟨h1, rfl⟩
  · exact .inr (.inl ⟨h2, rfl⟩)
  · exact .inr (.inr (.inl ⟨h3, rfl⟩))
  · exact .inr (.inr (.inr (.inl ⟨h4, rfl⟩)))
  · exact .inr (.inr (.inr (.inr ⟨h1, h2, h3, h4, rfl⟩)))

/-- What a register write can do (R171): dispatch, store, or nothing. -/
theorem execWr_cases (r : BitVec 8) (v : HostWord) (s : State) :
    (r = 0 ∧ execWr r v s = dispatchOp v s)
    ∨ (r ≠ 0 ∧ ∃ reg, reg ≠ .op ∧ Reg.ofNumber r = some reg ∧ execWr r v s = .next (s.writeReg reg v))
    ∨ (r ≠ 0 ∧ Reg.ofNumber r = none ∧ execWr r v s = .next s) := by
  unfold execWr
  cases h : Reg.ofNumber r with
  | none =>
    refine .inr (.inr ⟨?_, rfl, rfl⟩)
    rintro rfl
    exact absurd h (by decide)
  | some reg =>
    by_cases hop : reg = .op
    · subst hop
      exact .inl ⟨(ofNumber_eq_op r).1 h, rfl⟩
    · refine .inr (.inl ⟨?_, reg, hop, rfl, ?_⟩)
      · rintro rfl
        exact hop (Option.some.inj (h.symm.trans ((ofNumber_eq_op 0).2 rfl)))
      · cases reg <;> first | rfl | exact absurd rfl hop

/-! ### The frame that ENCODE writes -/

theorem buildFrame_length (f q : BitVec 6) (c : Byte) (p : List Byte) : (buildFrame f q c p).length = 21 + p.length := by
  simp [buildFrame, fixedHeader, targetBytes, dataBytes]; omega

@[simp] theorem txFrame_length (s : State) : s.txFrame.length = 21 + s.txPlen.toNat := by
  simp [State.txFrame, buildFrame_length]

end Sys2Proof.Machine
end

