-- ==== Sys2Proof/Laws/Exec.lean ====
section
/-! SUPPORT. Inversion: what a meaning, an instruction and a step can do when they answer a next state, said once. -/

namespace Sys2Proof.Machine

/-! ### The four operations -/

theorem execCsum_inv {s t : State} (h : execCsum s = .next t) :
    (s.csLen.toNat = 0 ∧ t = s.setStatus 0x011#10)
    ∨ (s.csLen.toNat ≠ 0 ∧ s.csBase.toNat + s.csLen.toNat > 1024 ∧ t = s.setStatus 0x019#10)
    ∨ (s.csLen.toNat ≠ 0 ∧ s.csBase.toNat + s.csLen.toNat ≤ 1024
        ∧ t = (s.setCsOut (csum8 s.csRange)).setStatus 0x000#10) := by
  rcases csRangeError_cases s with ⟨h0, e⟩ | ⟨h0, h1, e⟩ | ⟨h0, h1, e⟩
  · rw [execCsum_of_error e] at h; cases h; exact .inl ⟨h0, rfl⟩
  · rw [execCsum_of_error e] at h; cases h; exact .inr (.inl ⟨h0, h1, rfl⟩)
  · rw [execCsum_of_ok e] at h; cases h; exact .inr (.inr ⟨h0, h1, rfl⟩)

theorem execVerify_inv {s t : State} (h : execVerify s = .next t) :
    (s.csLen.toNat = 0 ∧ t = s.setStatus 0x011#10)
    ∨ (s.csLen.toNat ≠ 0 ∧ s.csBase.toNat + s.csLen.toNat > 1024 ∧ t = s.setStatus 0x019#10)
    ∨ (s.csLen.toNat ≠ 0 ∧ s.csBase.toNat + s.csLen.toNat ≤ 1024
        ∧ t = s.setStatus (statusWord .ok .noError (vsum8 s.csRange s.csIn) false)) := by
  rcases csRangeError_cases s with ⟨h0, e⟩ | ⟨h0, h1, e⟩ | ⟨h0, h1, e⟩
  · rw [execVerify_of_error e] at h; cases h; exact .inl ⟨h0, rfl⟩
  · rw [execVerify_of_error e] at h; cases h; exact .inr (.inl ⟨h0, h1, rfl⟩)
  · rw [execVerify_of_ok e] at h; cases h; exact .inr (.inr ⟨h0, h1, rfl⟩)

/-- The state after an ENCODE that succeeds. -/
abbrev State.encoded (s : State) : State :=
  ((s.writeBytes fbBase s.txFrame).setFlen (frameOverhead + s.txPlen.toNat)).setStatus 0x000#10

theorem execEncode_inv {s t : State} (h : execEncode s = .next t) :
    (∃ st ∈ [0x021#10, 0x029#10, 0x031#10, 0x03A#10], t = s.setStatus st)
    ∨ (s.txNetfn.toNat ≤ 63 ∧ s.txPlen.toNat ≤ 248 ∧ 21 + s.txPlen.toNat ≤ s.fcap.toNat ∧ t = s.encoded) := by
  rcases encodeError_cases s with ⟨_, e⟩ | ⟨_, _, e⟩ | ⟨_, _, _, e⟩ | ⟨_, _, _, e⟩ | ⟨h0, h1, h2, e⟩
  · rw [execEncode_of_error e] at h; cases h; exact .inl ⟨0x021#10, by decide, rfl⟩
  · rw [execEncode_of_error e] at h; cases h; exact .inl ⟨0x029#10, by decide, rfl⟩
  · rw [execEncode_of_error e] at h; cases h; exact .inl ⟨0x031#10, by decide, rfl⟩
  · rw [execEncode_of_error e] at h; cases h; exact .inl ⟨0x03A#10, by decide, rfl⟩
  · rw [execEncode_of_ok e] at h; cases h; exact .inr ⟨h0, h1, h2, rfl⟩

/-- The state after a DECODE that succeeds. -/
abbrev State.decoded (s : State) : State := s.commitMessage.setStatus (statusWord .ok .noError false s.authWarn)

theorem execDecode_inv {s t : State} (h : execDecode s = .next t) :
    (∃ st ∈ [0x019#10, 0x045#10, 0x04D#10, 0x055#10], t = s.setStatus st)
    ∨ (20 ≤ s.flen.toNat ∧ s.flen.toNat ≤ 512 ∧ s.readByte 0 = 0x06 ∧ s.readByte 3 = 0x07
        ∧ ∃ d ∈ [Detail.bodyOverrun, .hdrCsum, .bodyLenSmall, .dataCsum],
            t = s.setStatus (statusWord .protocol d false s.authWarn))
    ∨ (20 ≤ s.flen.toNat ∧ s.flen.toNat ≤ 512 ∧ s.readByte 0 = 0x06 ∧ s.readByte 3 = 0x07
        ∧ 14 + (s.readByte 13).toNat ≤ s.flen.toNat ∧ 7 ≤ (s.readByte 13).toNat ∧ t = s.decoded) := by
  rcases decodeEarlyError_cases s with ⟨_, e⟩ | ⟨_, e⟩ | ⟨_, _, _, e⟩ | ⟨_, _, _, _, e⟩ | ⟨h0, h1, h2, h3, e⟩
  · rw [execDecode_of_early e] at h; cases h; exact .inl ⟨0x019#10, by decide, rfl⟩
  · rw [execDecode_of_early e] at h; cases h; exact .inl ⟨0x045#10, by decide, rfl⟩
  · rw [execDecode_of_early e] at h; cases h; exact .inl ⟨0x04D#10, by decide, rfl⟩
  · rw [execDecode_of_early e] at h; cases h; exact .inl ⟨0x055#10, by decide, rfl⟩
  · rcases decodeLateError_cases s with ⟨_, e'⟩ | ⟨_, _, e'⟩ | ⟨_, _, _, e'⟩ | ⟨_, _, _, _, e'⟩ | ⟨h4, _, h5, _, e'⟩
    · rw [execDecode_of_late e e'] at h; cases h; exact .inr (.inl ⟨h0, h1, h2, h3, _, by decide, rfl⟩)
    · rw [execDecode_of_late e e'] at h; cases h; exact .inr (.inl ⟨h0, h1, h2, h3, _, by decide, rfl⟩)
    · rw [execDecode_of_late e e'] at h; cases h; exact .inr (.inl ⟨h0, h1, h2, h3, _, by decide, rfl⟩)
    · rw [execDecode_of_late e e'] at h; cases h; exact .inr (.inl ⟨h0, h1, h2, h3, _, by decide, rfl⟩)
    · rw [execDecode_of_ok e e'] at h; cases h; exact .inr (.inr ⟨h0, h1, h2, h3, h4, h5, rfl⟩)

/-- What a committed message changes in the buffer space: `RXP[0..n)`. -/
theorem commitMessage_readByte (s : State) (a : Nat) :
    s.commitMessage.readByte a =
      if 0x300 ≤ a ∧ a < 0x300 + ((s.readByte 13).toNat - 7) then s.readByte (20 + (a - 0x300)) else s.readByte a := by
  unfold State.commitMessage
  rw [State.readByte_writeBytes]
  simp only [State.rxPayloadLen, State.bodyLen, bodyOverhead, fb_eq, fbRange_eq, rxpBase, State.readBytes_length,
    State.setMessage_readByte, Nat.add_sub_cancel_left]
  split
  · rw [State.readBytes_getD _ _ (by omega)]
  · rfl

/-- What a written frame changes in the buffer space: `FB[0..21+n)`. -/
theorem encoded_readByte (s : State) (a : Nat) :
    s.encoded.readByte a = if a < 21 + s.txPlen.toNat then s.txFrame.getD a 0 else s.readByte a := by
  simp only [State.encoded, State.setStatus_readByte, State.setFlen_readByte, State.readByte_writeBytes, fbBase,
    txFrame_length]
  split <;> split <;> first | omega | simp

/-! ### Every instruction -/

/-- What an instruction can do: one of the four operations (as its own row or as a write of its word to OP), BAD_OP, a
read, a register write, a byte write, or nothing. -/
theorem exec_inv {i : Instr} {s t : State} (h : exec i s = .next t) :
    ((i = .csum ∨ i = .wr 0 1) ∧ execCsum s = .next t)
    ∨ ((i = .verify ∨ i = .wr 0 2) ∧ execVerify s = .next t)
    ∨ ((i = .encode ∨ i = .wr 0 3) ∧ execEncode s = .next t)
    ∨ ((i = .decode ∨ i = .wr 0 4) ∧ execDecode s = .next t)
    ∨ ((∃ v, i = .wr 0 v ∧ v ≠ 1 ∧ v ≠ 2 ∧ v ≠ 3 ∧ v ≠ 4) ∧ t = s.setStatus 0x009#10)
    ∨ (((∃ r, i = .rd r) ∨ ∃ a, i = .rb a) ∧ ∃ p, t = s.setReply p)
    ∨ (∃ r v reg, i = .wr r v ∧ r ≠ 0 ∧ reg ≠ .op ∧ t = s.writeReg reg v)
    ∨ (∃ a b, i = .wb a b ∧ a.toNat ≤ 0x3FF ∧ t = s.writeByte a.toNat b)
    ∨ (((∃ r v, i = .wr r v ∧ r ≠ 0) ∨ ∃ a b, i = .wb a b) ∧ t = s) := by
  cases i with
  | csum => exact .inl ⟨.inl rfl, h⟩
  | verify => exact .inr (.inl ⟨.inl rfl, h⟩)
  | encode => exact .inr (.inr (.inl ⟨.inl rfl, h⟩))
  | decode => exact .inr (.inr (.inr (.inl ⟨.inl rfl, h⟩)))
  | rd r =>
    simp only [exec, execRd] at h
    split at h <;> cases h <;> exact .inr (.inr (.inr (.inr (.inr (.inl ⟨.inl ⟨r, rfl⟩, _, rfl⟩)))))
  | wr r v =>
    simp only [exec] at h
    rcases execWr_cases r v s with ⟨rfl, e⟩ | ⟨hr, reg, hop, _, e⟩ | ⟨hr, _, e⟩
    · rw [e] at h
      rcases dispatchOp_cases v s with ⟨rfl, e⟩ | ⟨rfl, e⟩ | ⟨rfl, e⟩ | ⟨rfl, e⟩ | ⟨h1, h2, h3, h4, e⟩
      · exact .inl ⟨.inr rfl, e ▸ h⟩
      · exact .inr (.inl ⟨.inr rfl, e ▸ h⟩)
      · exact .inr (.inr (.inl ⟨.inr rfl, e ▸ h⟩))
      · exact .inr (.inr (.inr (.inl ⟨.inr rfl, e ▸ h⟩)))
      · rw [e] at h; cases h
        exact .inr (.inr (.inr (.inr (.inl ⟨⟨v, rfl, h1, h2, h3, h4⟩, rfl⟩))))
    · rw [e] at h; cases h
      exact .inr (.inr (.inr (.inr (.inr (.inr (.inl ⟨r, v, reg, rfl, hr, hop, rfl⟩))))))
    · rw [e] at h; cases h
      exact .inr (.inr (.inr (.inr (.inr (.inr (.inr (.inr ⟨.inl ⟨r, v, rfl, hr⟩, rfl⟩)))))))
  | rb a =>
    simp only [exec, execRb] at h
    split at h <;> cases h <;> exact .inr (.inr (.inr (.inr (.inr (.inl ⟨.inr ⟨a, rfl⟩, _, rfl⟩)))))
  | wb a b =>
    simp only [exec, execWb] at h
    split at h <;> cases h
    · exact .inr (.inr (.inr (.inr (.inr (.inr (.inr (.inl ⟨a, b, rfl, ‹_›, rfl⟩)))))))
    · exact .inr (.inr (.inr (.inr (.inr (.inr (.inr (.inr ⟨.inr ⟨a, b, rfl⟩, rfl⟩)))))))

/-! ### One step -/

/-- What a step that answers a next state can do (R86, R205, R220). -/
theorem step_inv {s t : State} (h : step s = .next t) :
    (s.script = [] ∧ t = s)
    ∨ (∃ rest, s.script = .reset :: rest ∧ t = ({ s with script := rest } : State).applyReset)
    ∨ (∃ w rest i, s.script = .action w :: rest ∧ decodeAction w = .ok i
        ∧ exec i { s with script := rest } = .next t) := by
  unfold step State.takeEvent at h
  cases hs : s.script with
  | nil => simp only [hs] at h; cases h; exact .inl ⟨rfl, rfl⟩
  | cons e rest =>
    cases e with
    | reset => simp only [hs] at h; cases h; exact .inr (.inl ⟨rest, rfl, rfl⟩)
    | action w =>
      simp only [hs, runAction] at h
      cases hd : decodeAction w with
      | ok i => rw [hd] at h; exact .inr (.inr ⟨w, rest, i, rfl, hd, h⟩)
      | error why => rw [hd] at h; cases h

end Sys2Proof.Machine
end

