-- ==== Sys2Proof/Laws/PerInstr.lean ====
section
/-! SUPPORT. The statement made per instruction: the encoding of an instruction fits its row of spec/opcode_table.json
(width, mask and match). -/

namespace Sys2Proof

/-- A row of spec/opcode_table.json: its width, mask and match. -/
structure TableRow where
  width : Nat
  mask : Nat
  pattern : Nat
  deriving DecidableEq, Repr

/-- The row of an instruction, as spec/opcode_table.json has it. -/
def Instr.tableRow : Instr → TableRow
  | .csum => ⟨32, 0xFFFFFFFF, 0x00000001⟩
  | .verify => ⟨32, 0xFFFFFFFF, 0x00000002⟩
  | .encode => ⟨32, 0xFFFFFFFF, 0x00000003⟩
  | .decode => ⟨32, 0xFFFFFFFF, 0x00000004⟩
  | .rd _ => ⟨48, 0xF000FFFFFFFF, 0x000000000000⟩
  | .wr _ _ => ⟨48, 0xF00000000000, 0x100000000000⟩
  | .rb _ => ⟨48, 0xF000FFFFFFFF, 0x200000000000⟩
  | .wb _ _ => ⟨48, 0xF000FFFFFF00, 0x300000000000⟩

/-- The encoding has the row's width and, under the row's mask, the row's bits. -/
def TableRow.fits (r : TableRow) : Encoded → Prop
  | .opWord w => r.width = 32 ∧ w &&& BitVec.ofNat 32 r.mask = BitVec.ofNat 32 r.pattern
  | .action w => r.width = 48 ∧ w &&& BitVec.ofNat 48 r.mask = BitVec.ofNat 48 r.pattern

/-- A record under a mask over `k` and `d`: nothing of the address field is left. -/
theorem actionWord_and_mask (k : ActionKind) (a : BitVec 12) (d m : HostWord) (mask pattern : Nat)
    (hm : BitVec.ofNat 48 mask = (0xF#4 ++ 0#12 ++ m : ActionWord))
    (hp : BitVec.ofNat 48 pattern = (k.code ++ 0#12 ++ (d &&& m) : ActionWord)) :
    actionWord k a d &&& BitVec.ofNat 48 mask = BitVec.ofNat 48 pattern := by
  have h : k.code &&& 0xF#4 = k.code := by cases k <;> rfl
  rw [hm, hp, ← h]
  apply BitVec.eq_of_getLsbD_eq
  intro i _
  simp only [actionWord, ActionRecord.toWord, BitVec.getLsbD_and, BitVec.getLsbD_append]
  split
  · rfl
  · split
    · simp
    · rfl

end Sys2Proof

namespace Sys2Proof.Laws.TableRow

/-- The encoding of the instruction fits its row of the opcode table. -/
def Statement (i : Instr) : Prop := i.tableRow.fits (encode i)

theorem csum : Statement .csum := ⟨rfl, rfl⟩

theorem verify : Statement .verify := ⟨rfl, rfl⟩

theorem encode : Statement .encode := ⟨rfl, rfl⟩

theorem decode : Statement .decode := ⟨rfl, rfl⟩

theorem rd (r : BitVec 8) : Statement (.rd r) :=
  ⟨rfl, actionWord_and_mask .rd (r.setWidth 12) 0#32 0xFFFFFFFF#32 0xF000FFFFFFFF 0x000000000000 (by decide) (by decide)⟩

theorem wr (r : BitVec 8) (v : HostWord) : Statement (.wr r v) :=
  ⟨rfl, actionWord_and_mask .wr (r.setWidth 12) v 0#32 0xF00000000000 0x100000000000 (by decide)
    (by rw [BitVec.and_zero]; decide)⟩

theorem rb (a : BitVec 12) : Statement (.rb a) :=
  ⟨rfl, actionWord_and_mask .rb a 0#32 0xFFFFFFFF#32 0xF000FFFFFFFF 0x200000000000 (by decide) (by decide)⟩

theorem wb (a : BitVec 12) (b : Byte) : Statement (.wb a b) := by
  have h : b.setWidth 32 &&& 0xFFFFFF00#32 = 0#32 := by revert b; decide
  exact ⟨rfl, actionWord_and_mask .wb a (b.setWidth 32) 0xFFFFFF00#32 0xF000FFFFFF00 0x300000000000 (by decide)
    (by rw [h]; decide)⟩

end Sys2Proof.Laws.TableRow
end

