-- ==== Sys2Proof/Tests/Slice0.lean ====
section
/-! SUPPORT. Tests of the encodings and the meanings, with values taken from spec/95_test_vectors.md, and for every
statement that has hypotheses a witness that meets them. -/

namespace Sys2Proof.Tests

open Sys2Proof.Machine

/-! ## Ill-formed encodings: one per check of WellFormed.lean, refused by it and by the decoder -/

/-- R80: bit 8 set (the word of vector T9). -/
theorem test_opWord_high_bits : opWordHighBitsZero 0x00000103 = false ∧ opWordWellFormed 0x00000103 = false
    ∧ decodeOpWord 0x00000103 = .error .reservedOpWord := ⟨rfl, rfl, rfl⟩

/-- R80, R82: the codes 0 and 5, on either side of the range. -/
theorem test_opWord_unknown_code : opWordCodeKnown 0 = false ∧ opWordCodeKnown 5 = false
    ∧ opWordWellFormed 5 = false ∧ decodeOpWord 0 = .error .reservedOpWord
    ∧ decodeOpWord 5 = .error .reservedOpWord := ⟨rfl, rfl, rfl, rfl, rfl⟩

/-- R87: kind 4. -/
theorem test_record_unknown_kind : (ActionRecord.ofWord 0x400000000000).kindKnown = false
    ∧ (ActionRecord.ofWord 0x400000000000).wellFormed = false
    ∧ decodeAction 0x400000000000 = .error .unknownKind := ⟨rfl, rfl, rfl⟩

/-- R87: register number 256, for a read and for a write. -/
theorem test_record_register_number : (ActionRecord.ofWord 0x010000000000).registerInRange = false
    ∧ (ActionRecord.ofWord 0x010000000000).wellFormed = false
    ∧ decodeAction 0x010000000000 = .error .registerNumberRange
    ∧ decodeAction 0x110000000001 = .error .registerNumberRange := ⟨rfl, rfl, rfl, rfl⟩

/-- R87: a read with data. -/
theorem test_record_read_data : (ActionRecord.ofWord 0x201000000001).readDataZero = false
    ∧ (ActionRecord.ofWord 0x201000000001).wellFormed = false
    ∧ decodeAction 0x201000000001 = .error .readDataNotZero
    ∧ decodeAction 0x000180000000 = .error .readDataNotZero := ⟨rfl, rfl, rfl, rfl⟩

/-- R87: a byte write of 256. -/
theorem test_record_write_data : (ActionRecord.ofWord 0x320000000100).writeDataByte = false
    ∧ (ActionRecord.ofWord 0x320000000100).wellFormed = false
    ∧ decodeAction 0x320000000100 = .error .writeDataNotByte := ⟨rfl, rfl, rfl⟩

/-! ## Words written out from R80 and R87 -/

/-- R80: opc 1 in bits 7:0, zeros above. -/
theorem test_decode_csum : decode (.opWord 0b00000000000000000000000000000001) = .ok .csum := rfl

/-- R80: opc 2. -/
theorem test_decode_verify : decode (.opWord 0b00000000000000000000000000000010) = .ok .verify := rfl

/-- R80: opc 3. -/
theorem test_decode_encode : decode (.opWord 0b00000000000000000000000000000011) = .ok .encode := rfl

/-- R80: opc 4. -/
theorem test_decode_decode : decode (.opWord 0b00000000000000000000000000000100) = .ok .decode := rfl

/-- R87, vector T9: `rd 0xFF` is k = 0000, a = 000011111111, d = 0; the boundary of the register numbers. -/
theorem test_decode_rd :
    decode (.action 0b0000_000011111111_00000000000000000000000000000000) = .ok (.rd 0xFF)
    ∧ decode (.action 0x000100000000) = .ok (.rd 0x01) := ⟨rfl, rfl⟩

/-- R87: `wr TX_NETFN, 6` is k = 0001, a = 0x008, d = 6; T9: `wr 0x12, 0xDEADBEEF`. -/
theorem test_decode_wr :
    decode (.action 0b0001_000000001000_00000000000000000000000000000110) = .ok (.wr 0x08 6)
    ∧ decode (.action 0x1012DEADBEEF) = .ok (.wr 0x12 0xDEADBEEF) := ⟨rfl, rfl⟩

/-- R87, vector T9: `rb 0x3FF` is k = 0010, a = 0x3FF; `rb 0x400` is a record too. -/
theorem test_decode_rb :
    decode (.action 0b0010_001111111111_00000000000000000000000000000000) = .ok (.rb 0x3FF)
    ∧ decode (.action 0x240000000000) = .ok (.rb 0x400) := ⟨rfl, rfl⟩

/-- R87: `wb TXP+0, 0xAB` is k = 0011, a = 0x200, d = 0xAB; T9: `wb 0x3FF, 0x11`. -/
theorem test_decode_wb :
    decode (.action 0b0011_001000000000_00000000000000000000000010101011) = .ok (.wb 0x200 0xAB)
    ∧ decode (.action 0x33FF00000011) = .ok (.wb 0x3FF 0x11) := ⟨rfl, rfl⟩

/-! ## Small states -/

/-- The state after an instruction that answers one (else the state before it). -/
def after (i : Instr) (s : State) : State :=
  match exec i s with
  | .next t => t
  | _ => s

/-- An instruction answers a next state. -/
def completes (i : Instr) (s : State) : Bool :=
  match exec i s with
  | .next _ => true
  | _ => false

/-- The state after one step that answers one (else the state before it). -/
def afterStep (s : State) : State :=
  match step s with
  | .next t => t
  | _ => s

/-- A step answers a next state. -/
def steps (s : State) : Bool :=
  match step s with
  | .next _ => true
  | _ => false

theorem exec_after {i : Instr} {s : State} (h : completes i s = true) : exec i s = .next (after i s) := by
  unfold completes at h
  unfold after
  cases e : exec i s with
  | next t => rfl
  | fault r => rw [e] at h; cases h
  | refused r => rw [e] at h; cases h

theorem step_afterStep {s : State} (h : steps s = true) : step s = .next (afterStep s) := by
  unfold steps at h
  unfold afterStep
  cases e : step s with
  | next t => rfl
  | fault r => rw [e] at h; cases h
  | refused r => rw [e] at h; cases h

/-- Reset, then `bs` stored from address `a` on. -/
def loaded (a : Nat) (bs : List Byte) : State := State.reset.writeBytes a bs

/-- The frame of V1 with its data checksum 7A. -/
def frameV1 : List Byte :=
  [0x06, 0x00, 0xFF, 0x07, 0, 0, 0, 0, 0, 0, 0, 0, 0, 0x07, 0x20, 0x18, 0xC8, 0x81, 0x04, 0x01, 0x7A]

/-- V1 in FB with the given FLEN and the byte at `j` replaced by `b`. -/
def v1 (flen : Nat) (j : Nat) (b : Byte) : State :=
  { loaded 0 (frameV1.set j b) with flen := BitVec.ofNat 16 flen }

/-- The message of V1 in the TX registers, FCAP as given. -/
def msgV1 (fcap : Nat) : State :=
  { State.reset with txNetfn := 0x06, txCmd := 0x01, txSeq := 1, fcap := BitVec.ofNat 16 fcap }

/-- The start state of table T3, with CS_BASE, CS_LEN and CS_IN. -/
def t3 (base len cin : Nat) : State :=
  { (((loaded 14 [0x20, 0x18, 0xC8]).writeByte 0x1FF 0x10).writeByte 0x200 0xF0) with
    csOut := 0x55, csBase := BitVec.ofNat 16 base, csLen := BitVec.ofNat 16 len, csIn := BitVec.ofNat 8 cin }

/-- The smallest message (n = 0) and the largest (n = 248, NetFn 63), each with exactly the room it needs. -/
def msgMax : State := { State.reset with txNetfn := 63, txPlen := 248, fcap := 269 }

/-! ## One step, values of spec/95_test_vectors.md -/

/-- T3: the range 0x1FF, 2 crosses from FB into TXP; [20 18] gives C8. -/
theorem test_csum : (after .csum (t3 0x00E 2 0)).csOut = 0xC8 ∧ (after .csum (t3 0x00E 2 0)).status = 0x000
    ∧ (after .csum (t3 0x1FF 2 0)).csOut = 0x00 := by decide

/-- T3: empty before out of bounds, no 16-bit wrap, CS_OUT unchanged. -/
theorem test_csum_errors : (after .csum (t3 0x400 0 0)).status = 0x011 ∧ (after .csum (t3 0x3FF 2 0)).status = 0x019
    ∧ (after .csum (t3 0xFFFF 0xFFFF 0)).status = 0x019 ∧ (after .csum (t3 0x400 1 0)).csOut = 0x55 := by decide

/-- T3: C8 verifies, C9 does not and is no error; CS_OUT unchanged. -/
theorem test_verify : (after .verify (t3 0x00E 2 0xC8)).status = 0x100
    ∧ (after .verify (t3 0x00E 2 0xC9)).status = 0x000 ∧ (after .verify (t3 0x00E 2 0xC8)).csOut = 0x55 := by decide

/-- T3: VERIFY's two errors. -/
theorem test_verify_errors : (after .verify (t3 0x00E 0 0)).status = 0x011
    ∧ (after .verify (t3 0x3FF 2 0)).status = 0x019 := by decide

/-- V1: the Get Device ID request, with exactly the room it needs. -/
theorem test_encode_v1 : (after .encode (msgV1 21)).readBytes 0 21 = frameV1 ∧ (after .encode (msgV1 21)).flen = 21
    ∧ (after .encode (msgV1 21)).status = 0x000 := by decide

/-- T5: the order of the checks and their boundaries; the clauses of EncodeReportsTheFirstFailingCheck. -/
theorem test_encode_errors :
    (after .encode { State.reset with txNetfn := 0x40, txPlen := 300 }).status = 0x021
    ∧ (after .encode { State.reset with txNetfn := 0x3F, txPlen := 257, fcap := 0x200 }).status = 0x029
    ∧ (after .encode { State.reset with txNetfn := 0x3F, txPlen := 256, fcap := 0xFFFF }).status = 0x031
    ∧ (after .encode { State.reset with txNetfn := 0x3F, txPlen := 249 }).status = 0x031
    ∧ (after .encode (msgV1 20)).status = 0x03A
    ∧ (after .encode { State.reset with txNetfn := 0x06, txPlen := 248, fcap := 268 }).status = 0x03A := by decide

/-- The frame R33L of T6, LUNs 2 and 3. -/
def r33l : State :=
  { loaded 0 ([0x06, 0x00, 0xFF, 0x07, 0, 0, 0, 0, 0, 0, 0, 0, 0, 0x13, 0x81, 0x1E, 0x61, 0x20, 0x07, 0x01]
      ++ [0x00, 0x20, 0x01, 0x02, 0x43, 0x02, 0xBF, 0x57, 0x01, 0x00, 0x34, 0x12, 0x13]) with flen := 33 }

/-- T6: R33L gives its message. -/
theorem test_decode_r33l : (after .decode r33l).status = 0x000 ∧ (after .decode r33l).rxNetfn = 0x07
    ∧ (after .decode r33l).rxCmd = 0x01 ∧ (after .decode r33l).rxSeq = 1 ∧ (after .decode r33l).rxPlen = 12
    ∧ (after .decode r33l).rxTlun = 2 ∧ (after .decode r33l).rxSlun = 3
    ∧ (after .decode r33l).readBytes 0x300 12
        = [0x00, 0x20, 0x01, 0x02, 0x43, 0x02, 0xBF, 0x57, 0x01, 0x00, 0x34, 0x12] := by decide

/-- T7: one row per failing step, and AUTH_WARN (vectors of V1); the clauses of DecodeReportsTheFirstFailingStep. -/
theorem test_decode_errors :
    (after .decode (v1 513 0 0x06)).status = 0x019 ∧ (after .decode (v1 19 0 0x06)).status = 0x045
    ∧ (after .decode (v1 21 0 0x05)).status = 0x04D ∧ (after .decode (v1 21 3 0x06)).status = 0x055
    ∧ (after .decode (v1 20 0 0x06)).status = 0x05D ∧ (after .decode (v1 21 13 0x08)).status = 0x05D
    ∧ (after .decode (v1 21 16 0xC9)).status = 0x065 ∧ (after .decode (v1 21 13 0x06)).status = 0x06D
    ∧ (after .decode (v1 21 20 0x7B)).status = 0x07D ∧ (after .decode (v1 21 4 0x02)).status = 0x200
    ∧ (after .decode ({ v1 21 20 0x7B with mem := Memory.write (v1 21 20 0x7B).mem 4 0x02 })).status = 0x27D := by
  decide

/-- T9: OP and the reserved numbers read 0; P4 ends with STATUS 0x100 read back. -/
theorem test_rd : (after (.rd 0x00) (t3 0 1 0)).reply = some (.word 0)
    ∧ (after (.rd 0x12) (t3 0 1 0)).reply = some (.word 0) ∧ (after (.rd 0xFF) (t3 0 1 0)).reply = some (.word 0)
    ∧ (after (.rd 0x07) (t3 0 1 0)).reply = some (.word 0x55) := by decide

/-- T9: the widths of TX_NETFN, TX_PLEN, FCAP and CS_IN, and the read-only registers; clauses of
RegisterWriteStoresTheLowBitsOrDispatches. -/
theorem test_wr : (after (.wr 0x08 0x1FF) State.reset).txNetfn = 0xFF
    ∧ (after (.wr 0x0B 0x12345) State.reset).txPlen = 0x2345
    ∧ (after (.wr 0x02 0xFFFFFFFF) State.reset).fcap = 0xFFFF ∧ (after (.wr 0x06 0x1C8) State.reset).csIn = 0xC8
    ∧ after (.wr 0x01 0x3FF) State.reset = State.reset ∧ after (.wr 0x0C 0x3F) State.reset = State.reset
    ∧ after (.wr 0x12 0xDEADBEEF) State.reset = State.reset := by decide

/-- T9: reserved words written to OP, and R88: `wr OP, 1` is `op CSUM`. -/
theorem test_wr_op : (after (.wr 0 0) State.reset).status = 0x009 ∧ (after (.wr 0 5) State.reset).status = 0x009
    ∧ (after (.wr 0 0x00000103) State.reset).status = 0x009 ∧ (after (.wr 0 0x80000001) State.reset).status = 0x009
    ∧ (after (.wr 0 0xFFFFFFFF) State.reset).status = 0x009
    ∧ (after (.wr 0 1) (t3 0x00E 2 0)).csOut = 0xC8 := by decide

/-- T9: `rb 0x3FF` after `wb 0x3FF, 0x11`; `rb 0x400` is 0. -/
theorem test_rb : (after (.rb 0x3FF) (after (.wb 0x3FF 0x11) State.reset)).reply = some (.byte 0x11)
    ∧ (after (.rb 0x400) State.reset).reply = some (.byte 0) := by decide

/-- T9: `wb 0x400, 0x11` writes nothing; 0x1FF and 0x200 are neighbours in different regions. -/
theorem test_wb : after (.wb 0x400 0x11) State.reset = State.reset
    ∧ (after (.wb 0x200 0x33) (after (.wb 0x1FF 0x22) State.reset)).readByte 0x1FF = 0x22
    ∧ (after (.wb 0x200 0x33) (after (.wb 0x1FF 0x22) State.reset)).readByte 0x200 = 0x33 := by decide

/-- The words of the opcode table run as the first instruction after reset. -/
theorem test_withFetchWord : (afterStep (State.reset.withFetchWord 32 0x00000003)).status = 0x03A
    ∧ (afterStep (State.reset.withFetchWord 32 0x00000004)).status = 0x045
    ∧ (afterStep (State.reset.withFetchWord 48 0x000100000000)).reply = some (.word 0)
    ∧ (afterStep (State.reset.withFetchWord 48 0x3200000000AB)).readByte 0x200 = 0xAB := by decide

/-! ## Witnesses: states and operands that meet the hypotheses of a statement, clause by clause -/

/-- EncodeInvertsDecode, in both formats. -/
theorem witness_EncodeInvertsDecode : decode (.opWord 4) = .ok .decode ∧ decode (.action 0x34000000000F) = .ok (.wb 0x400 0x0F) :=
  ⟨rfl, rfl⟩

/-- ActionRecordsAcceptedAreThoseOfTheSpec: the last record accepted and the first refused, for each condition. -/
theorem witness_ActionRecords :
    (decodeAction 0x3FFF000000FF).toBool = true ∧ (decodeAction 0x3FFF00000100).toBool = false
    ∧ (decodeAction 0x400000000000).toBool = false ∧ (decodeAction 0x00FF00000000).toBool = true
    ∧ (decodeAction 0x010000000000).toBool = false ∧ (decodeAction 0x10FFFFFFFFFF).toBool = true
    ∧ (decodeAction 0x110000000000).toBool = false ∧ (decodeAction 0x2FFF00000000).toBool = true
    ∧ (decodeAction 0x2FFF00000001).toBool = false ∧ (decodeAction 0x000000000001).toBool = false := by decide

/-- A state with one event to come. -/
def withEvent (e : HostEvent) (s : State) : State := { s with script := [e] }

/-- ExternalResetStartsOver: from a state in which much is written. -/
theorem witness_ExternalReset : ∃ s t rest, s.script = .reset :: rest ∧ step s = .next t :=
  ⟨withEvent .reset (t3 0 1 7), _, [], rfl, step_afterStep (by decide)⟩

/-- StepRunsTheNextHostAction. -/
theorem witness_StepRunsNext : ∃ (s : State) (w : ActionWord) (rest : List HostEvent) (i : Instr), s.script = .action w :: rest ∧ decodeAction w = .ok i :=
  ⟨withEvent (.action 0x100800000006) State.reset, _, [], .wr 0x08 6, rfl, rfl⟩

/-- StepRunsTheOperationWrittenToOp, for each operation. -/
theorem witness_StepRunsOperation (o : Operation) :
    ∃ (s : State) (rest : List HostEvent), s.script = .action (Encoded.toAction (.opWord (encodeOpWord o))) :: rest :=
  ⟨withEvent (.action (Encoded.toAction (.opWord (encodeOpWord o)))) State.reset, [], rfl⟩

/-- StepIdlesOrRefusesWithoutAnAction, both clauses. -/
theorem witness_StepIdlesOrRefuses : State.reset.script = []
    ∧ ∃ (s : State) (w : ActionWord) (rest : List HostEvent) (why : DecodeError), s.script = .action w :: rest ∧ decodeAction w = .error why :=
  ⟨rfl, withEvent (.action 0x400000000000) State.reset, _, [], .unknownKind, rfl, rfl⟩

/-- ReservedOperationWordsReportBadOp: the words beside the range of the operations. -/
theorem witness_ReservedWords : ((0 : HostWord).toNat = 0 ∨ 4 < (0 : HostWord).toNat)
    ∧ ((5 : HostWord).toNat = 0 ∨ 4 < (5 : HostWord).toNat) ∧ ¬((4 : HostWord).toNat = 0 ∨ 4 < (4 : HostWord).toNat)
    ∧ ¬((1 : HostWord).toNat = 0 ∨ 4 < (1 : HostWord).toNat) := by decide

/-- RegisterReadAfterWrite: a register of each width, a read-only and a reserved one; what each clause says of it. -/
theorem witness_RegisterReadAfterWrite :
    (after (.rd 0x0B) (after (.wr 0x0B 0x12345) State.reset)).reply = some (.word 0x2345)
    ∧ (after (.rd 0x06) (after (.wr 0x06 0x1C8) State.reset)).reply = some (.word 0xC8)
    ∧ (after (.rd 0x0A) (after (.wr 0x0A 0xFFFFFFFF) State.reset)).reply = some (.word 0xFFFFFFFF)
    ∧ (after (.rd 0x07) (after (.wr 0x07 0x99) (t3 0 1 0))).reply = some (.word 0x55)
    ∧ (after (.rd 0x12) (after (.wr 0x12 0x99) (t3 0 1 0))).reply = some (.word 0) := by decide

/-- BufferReadReturnsTheByte, BufferWriteStoresOneByte: both sides of 0x3FF. -/
theorem witness_BufferBoundary : (0x3FF : BitVec 12).toNat ≤ 0x3FF ∧ ¬(0x400 : BitVec 12).toNat ≤ 0x3FF := by decide

/-- BufferReadReturnsTheLatestWrite. -/
theorem witness_BufferLatestWrite : (0x3FF : BitVec 12).toNat ≤ 0x3FF ∧ (0x3FE : BitVec 12) ≠ 0x3FF
    ∧ (0x400 : BitVec 12) ≠ 0x3FF := by decide

/-- UnwrittenBytesReadAsTheFreeValue: 0x3FF when only 0x3FE is written. -/
theorem witness_UnwrittenBytes : ∃ (a : BitVec 12) (s : State), a.toNat ≤ 0x3FF ∧ s.mem ≠ [] ∧ ∀ c ∈ s.mem, c.1 ≠ a.toNat :=
  ⟨0x3FF, loaded 0x3FE [0x11], by decide, by decide, by decide⟩

/-- CsumWritesTheChecksumOfTheRange, VerifyReportsTheSumInVok, CsumThenVerifySucceeds: the three clauses at their
boundaries: length 0, end 0x401, end 0x400, the longest range. -/
theorem witness_ChecksumRange :
    (t3 0x400 0 0).csLen.toNat = 0
    ∧ ((t3 0x3FF 2 0).csLen.toNat ≠ 0 ∧ (t3 0x3FF 2 0).csBase.toNat + (t3 0x3FF 2 0).csLen.toNat > 1024)
    ∧ ((t3 0x3FF 1 0).csLen.toNat ≠ 0 ∧ (t3 0x3FF 1 0).csBase.toNat + (t3 0x3FF 1 0).csLen.toNat ≤ 1024)
    ∧ (1 ≤ (t3 0 1024 0).csLen.toNat ∧ (t3 0 1024 0).csBase.toNat + (t3 0 1024 0).csLen.toNat ≤ 1024) := by decide

/-- ChecksumLaws: a permutation (T1's [20 18] the other way round). -/
theorem witness_ChecksumLaws : List.Perm [0x20#8, 0x18#8] [0x18#8, 0x20#8] := List.Perm.swap _ _ _

/-- OneChangedByteBreaksTheChecksum: T1's [20 18] with C8, its bytes changed to 21 and its checksum to C9. -/
theorem witness_OneChangedByte : vsum8 [0x20, 0x18] 0xC8 = true ∧ (0x21 : Byte) ≠ [0x20, 0x18][0] ∧ (0xC9 : Byte) ≠ 0xC8 := by
  decide

/-- ChecksumOperationsReadOnlyTheirRange: two states that differ outside the range. -/
theorem witness_ChecksumReads : ∃ s t : State, s ≠ t ∧ s.csBase = t.csBase ∧ s.csLen = t.csLen ∧ s.csIn = t.csIn
    ∧ (∀ i < s.csLen.toNat, s.readByte (s.csBase.toNat + i) = t.readByte (s.csBase.toNat + i))
    ∧ exec .csum s = .next (after .csum s) ∧ exec .csum t = .next (after .csum t) ∧ (after .csum s).status = 0
    ∧ exec .verify s = .next (after .verify s) ∧ exec .verify t = .next (after .verify t) :=
  ⟨t3 0x00E 2 0, { t3 0x00E 2 0 with csOut := 0x11, mem := Memory.write (t3 0x00E 2 0).mem 0x010 0x00 },
    by decide, rfl, rfl, rfl, by decide, exec_after (by decide), exec_after (by decide), by decide,
    exec_after (by decide), exec_after (by decide)⟩

/-- EncodeBuildsTheFrame, EncodeThenDecodeReturnsTheMessage: the smallest and the largest message, each with exactly the
room it needs. -/
theorem witness_EncodeConditions :
    ((msgV1 21).txNetfn.toNat ≤ 63 ∧ (msgV1 21).txPlen.toNat ≤ 248 ∧ 21 + (msgV1 21).txPlen.toNat ≤ (msgV1 21).fcap.toNat)
    ∧ msgMax.txNetfn.toNat ≤ 63 ∧ msgMax.txPlen.toNat ≤ 248 ∧ 21 + msgMax.txPlen.toNat ≤ msgMax.fcap.toNat := by decide

/-- EncodeReadsOnlyTheMessage: equal messages, other registers and bytes different. -/
theorem witness_EncodeReads : ∃ s t : State, s ≠ t ∧ s.txNetfn = t.txNetfn ∧ s.txCmd = t.txCmd ∧ s.txSeq = t.txSeq
    ∧ s.txPlen = t.txPlen ∧ s.fcap = t.fcap ∧ (∀ i < s.txPlen.toNat, s.readByte (0x200 + i) = t.readByte (0x200 + i))
    ∧ exec .encode s = .next (after .encode s) ∧ exec .encode t = .next (after .encode t)
    ∧ (after .encode s).status = 0 :=
  ⟨{ (msgV1 22).writeByte 0x200 0x7A with txPlen := 1 }, { (msgV1 22).writeBytes 0x200 [0x7A, 0x7B] with txPlen := 1, flen := 9 },
    by decide, rfl, rfl, rfl, rfl, rfl, by decide, exec_after (by decide), exec_after (by decide), by decide⟩

/-- EncodeTwiceIsEncodeOnce: an ENCODE that succeeds and one that fails. -/
theorem witness_EncodeTwice :
    (Memory.wf (msgV1 21).mem = true ∧ exec .encode (msgV1 21) = .next (after .encode (msgV1 21)))
    ∧ Memory.wf (msgV1 20).mem = true ∧ exec .encode (msgV1 20) = .next (after .encode (msgV1 20)) :=
  ⟨⟨by decide, exec_after (by decide)⟩, by decide, exec_after (by decide)⟩

/-- DecodeCommitsTheMessage: V1 at its own length and at the largest FLEN, and with a non-zero authentication type. -/
theorem witness_DecodeConditions : ∀ s ∈ [v1 21 0 0x06, v1 512 0 0x06, v1 21 4 0x02, r33l],
    20 ≤ s.flen.toNat ∧ s.flen.toNat ≤ 512 ∧ s.readByte 0 = 0x06 ∧ s.readByte 3 = 0x07
    ∧ 14 + (s.readByte 13).toNat ≤ s.flen.toNat
    ∧ ((s.readByte 14).toNat + (s.readByte 15).toNat + (s.readByte 16).toNat) % 256 = 0 ∧ 7 ≤ (s.readByte 13).toNat
    ∧ ((List.range ((s.readByte 13).toNat - 3)).map fun i => (s.readByte (17 + i)).toNat).sum % 256 = 0 := by
  decide

/-- DecodeCommitsTheMessage, its second clause: a DECODE that fails in its last step. -/
theorem witness_DecodeFails : exec .decode (v1 21 20 0x7B) = .next (after .decode (v1 21 20 0x7B))
    ∧ statusErr (after .decode (v1 21 20 0x7B)).status ≠ 0 := ⟨exec_after (by decide), by decide⟩

/-- DecodeReadsOnlyTheFrame: V1 with a byte that is not checked, and V1 as it is. -/
theorem witness_DecodeReads : ∃ s t : State, s ≠ t ∧ s.flen = t.flen
    ∧ (∀ i < s.flen.toNat, (i < 20 ∨ i < 14 + (s.readByte 13).toNat) → i ≠ 1 → i ≠ 2 → (i < 5 ∨ 12 < i) →
        s.readByte i = t.readByte i)
    ∧ exec .decode s = .next (after .decode s) ∧ exec .decode t = .next (after .decode t)
    ∧ statusErr (after .decode s).status = 0 :=
  ⟨v1 21 0 0x06, v1 21 12 0xFF, by decide, rfl,
    fun i hi _ _ _ h => (by decide : ∀ i < 21, i ≠ 12 → (v1 21 0 0x06).readByte i = (v1 21 12 0xFF).readByte i) i hi (by omega),
    exec_after (by decide), exec_after (by decide), by decide⟩

/-- DecodeTwiceIsDecodeOnce: a DECODE that succeeds and one that fails. -/
theorem witness_DecodeTwice : (Memory.wf r33l.mem = true ∧ exec .decode r33l = .next (after .decode r33l))
    ∧ Memory.wf (v1 21 20 0x7B).mem = true ∧ exec .decode (v1 21 20 0x7B) = .next (after .decode (v1 21 20 0x7B)) :=
  ⟨⟨by decide, exec_after (by decide)⟩, by decide, exec_after (by decide)⟩

/-- TwentyBytesNeverDecode, its four clauses: a bad version, a bad class, L = 7 and L = 6. -/
theorem witness_TwentyBytes :
    ((v1 20 0 0x05).flen.toNat = 20 ∧ (v1 20 0 0x05).readByte 0 ≠ 0x06)
    ∧ ((v1 20 3 0x06).flen.toNat = 20 ∧ (v1 20 3 0x06).readByte 0 = 0x06 ∧ (v1 20 3 0x06).readByte 3 ≠ 0x07)
    ∧ ((v1 20 0 0x06).flen.toNat = 20 ∧ 7 ≤ ((v1 20 0 0x06).readByte 13).toNat ∧ (v1 20 0 0x06).readByte 0 = 0x06
      ∧ (v1 20 0 0x06).readByte 3 = 0x07)
    ∧ (v1 20 13 0x06).flen.toNat = 20 ∧ ((v1 20 13 0x06).readByte 13).toNat ≤ 6 ∧ (v1 20 13 0x06).readByte 0 = 0x06
      ∧ (v1 20 13 0x06).readByte 3 = 0x07 := by decide

/-- V1's message with the payload 10 6A: 81 04 01 10 6A sums to 0, so with its length byte changed to 08 the frame still
passes, as T6's does with 07, and the payload is cut to 10. -/
def msgTrap : State := { (msgV1 23).writeBytes 0x200 [0x10, 0x6A] with txPlen := 2 }

/-- The offset and the new byte of a corruption meet the hypotheses of OneCorruptedByteOfAFrame. -/
def corrupts (s : State) (j : BitVec 12) (b : Byte) : Prop :=
  s.txNetfn.toNat ≤ 63 ∧ s.txPlen.toNat ≤ 248 ∧ 21 + s.txPlen.toNat ≤ s.fcap.toNat
    ∧ exec .encode s = .next (after .encode s) ∧ j.toNat < 21 + s.txPlen.toNat ∧ b ≠ (after .encode s).readByte j.toNat

theorem corrupts_of {s : State} {j : BitVec 12} {b : Byte} (h : s.txNetfn.toNat ≤ 63 ∧ s.txPlen.toNat ≤ 248
    ∧ 21 + s.txPlen.toNat ≤ s.fcap.toNat ∧ completes .encode s = true ∧ j.toNat < 21 + s.txPlen.toNat
    ∧ b ≠ (after .encode s).readByte j.toNat) : corrupts s j b :=
  ⟨h.1, h.2.1, h.2.2.1, exec_after h.2.2.2.1, h.2.2.2.2.1, h.2.2.2.2.2⟩

/-- OneCorruptedByteOfAFrame: offsets 0, 3, 1, 4, 12, 14, 16, 17 and the last, on V1 (the table of T7). -/
theorem witness_OneCorruptedByte : corrupts (msgV1 21) 0 0x07 ∧ corrupts (msgV1 21) 3 0x06 ∧ corrupts (msgV1 21) 1 0x01
    ∧ corrupts (msgV1 21) 4 0x01 ∧ corrupts (msgV1 21) 12 0x01 ∧ corrupts (msgV1 21) 14 0x21
    ∧ corrupts (msgV1 21) 16 0xC9 ∧ corrupts (msgV1 21) 17 0x80 ∧ corrupts (msgV1 21) 20 0x7B :=
  ⟨corrupts_of (by decide), corrupts_of (by decide), corrupts_of (by decide), corrupts_of (by decide),
    corrupts_of (by decide), corrupts_of (by decide), corrupts_of (by decide), corrupts_of (by decide),
    corrupts_of (by decide)⟩

/-- V1's message with the payload 01 01. -/
def msgTwo : State := { (msgV1 23).writeBytes 0x200 [0x01, 0x01] with txPlen := 2 }

/-- OneCorruptedByteOfAFrame, offset 13: L too large, too small, 8 where the data still sums to 0 and a payload
byte is left, 8 where it does not. -/
theorem witness_OneCorruptedLength : corrupts (msgV1 21) 13 0x08 ∧ corrupts (msgV1 21) 13 0x06
    ∧ corrupts msgTrap 13 0x08 ∧ corrupts msgTwo 13 0x08
    ∧ ((List.range 5).map fun i => ((after .encode msgTrap).readByte (17 + i)).toNat).sum % 256 = 0
    ∧ ((List.range 5).map fun i => ((after .encode msgTwo).readByte (17 + i)).toNat).sum % 256 ≠ 0 :=
  ⟨corrupts_of (by decide), corrupts_of (by decide), corrupts_of (by decide), corrupts_of (by decide), by decide,
    by decide⟩

/-- AnErrorChangesStatusOnly: each operation with an error, DECODE with AUTH_WARN. -/
theorem witness_AnError :
    (exec .csum (t3 0 0 0) = .next (after .csum (t3 0 0 0)) ∧ statusErr (after .csum (t3 0 0 0)).status ≠ 0)
    ∧ (exec .verify (t3 0 0 0) = .next (after .verify (t3 0 0 0)) ∧ statusErr (after .verify (t3 0 0 0)).status ≠ 0)
    ∧ (exec .encode (msgV1 20) = .next (after .encode (msgV1 20)) ∧ statusErr (after .encode (msgV1 20)).status ≠ 0)
    ∧ exec .decode { r33l with flen := 32, mem := Memory.write r33l.mem 4 0x02 }
        = .next (after .decode { r33l with flen := 32, mem := Memory.write r33l.mem 4 0x02 })
    ∧ (after .decode { r33l with flen := 32, mem := Memory.write r33l.mem 4 0x02 }).status = 0x25D :=
  ⟨⟨exec_after (by decide), by decide⟩, ⟨exec_after (by decide), by decide⟩, ⟨exec_after (by decide), by decide⟩,
    exec_after (by decide), by decide⟩

/-- DetailDeterminesErr: a state for each of DETAIL 0, at most 6, 7, and above. -/
theorem witness_Detail :
    (exec .csum (t3 0x00E 2 0) = .next (after .csum (t3 0x00E 2 0)) ∧ statusDetail (after .csum (t3 0x00E 2 0)).status = 0)
    ∧ (exec (.wr 0 5) (t3 0 0 0) = .next (after (.wr 0 5) (t3 0 0 0))
        ∧ statusDetail (after (.wr 0 5) (t3 0 0 0)).status = 1)
    ∧ (exec .encode (msgV1 20) = .next (after .encode (msgV1 20)) ∧ statusDetail (after .encode (msgV1 20)).status = 7)
    ∧ exec .decode (v1 21 20 0x7B) = .next (after .decode (v1 21 20 0x7B))
    ∧ statusDetail (after .decode (v1 21 20 0x7B)).status = 15 :=
  ⟨⟨exec_after (by decide), by decide⟩, ⟨exec_after (by decide), by decide⟩, ⟨exec_after (by decide), by decide⟩,
    exec_after (by decide), by decide⟩

/-- FlagsSayWhatTheLastOperationFound: a VERIFY with VOK and a DECODE with AUTH_WARN. -/
theorem witness_Flags :
    (exec .verify (t3 0x00E 2 0xC8) = .next (after .verify (t3 0x00E 2 0xC8))
      ∧ statusVok (after .verify (t3 0x00E 2 0xC8)).status = true)
    ∧ exec .decode (v1 21 4 0x02) = .next (after .decode (v1 21 4 0x02))
    ∧ statusAuthWarn (after .decode (v1 21 4 0x02)).status = true :=
  ⟨⟨exec_after (by decide), by decide⟩, exec_after (by decide), by decide⟩

/-- OnlyOperationsChangeStatus, OperationsOverwriteAllOfStatus: STATUS changes. -/
theorem witness_StatusChanges : exec (.wr 0 0) State.reset = .next (after (.wr 0 0) State.reset)
    ∧ (after (.wr 0 0) State.reset).status ≠ State.reset.status := ⟨exec_after (by decide), by decide⟩

/-- MessageRegistersChangeOnlyByDecode, WritesStayInTheirRegion: DECODE changes both, ENCODE and `wb` their bytes. -/
theorem witness_Writes :
    (exec .decode r33l = .next (after .decode r33l) ∧ (after .decode r33l).rxPlen ≠ r33l.rxPlen)
    ∧ (exec (.wb 0x3FF 0x22) (loaded 0x3FF [0x11]) = .next (after (.wb 0x3FF 0x22) (loaded 0x3FF [0x11]))
        ∧ (after (.wb 0x3FF 0x22) (loaded 0x3FF [0x11])).readByte 0x3FF ≠ (loaded 0x3FF [0x11]).readByte 0x3FF)
    ∧ (exec .encode ((msgV1 21).writeByte 20 0) = .next (after .encode ((msgV1 21).writeByte 20 0))
        ∧ (after .encode ((msgV1 21).writeByte 20 0)).readByte 20 ≠ ((msgV1 21).writeByte 20 0).readByte 20)
    ∧ exec .decode (r33l.writeByte 0x301 0) = .next (after .decode (r33l.writeByte 0x301 0))
    ∧ (after .decode (r33l.writeByte 0x301 0)).readByte 0x301 ≠ (r33l.writeByte 0x301 0).readByte 0x301 :=
  ⟨⟨exec_after (by decide), by decide⟩, ⟨exec_after (by decide), by decide⟩, ⟨exec_after (by decide), by decide⟩,
    exec_after (by decide), by decide⟩

/-- ChecksumResultChangesOnlyByCsum: CS_OUT changes. -/
theorem witness_CsOutChanges : exec .csum (t3 0x00E 2 0) = .next (after .csum (t3 0x00E 2 0))
    ∧ (after .csum (t3 0x00E 2 0)).csOut ≠ (t3 0x00E 2 0).csOut := ⟨exec_after (by decide), by decide⟩

/-- InputRegistersChangeOnlyByTheHost: ENCODE is no host write and changes FLEN. -/
theorem witness_Inputs : exec .encode (msgV1 21) = .next (after .encode (msgV1 21))
    ∧ (∀ r v, r ≠ 0 → (.encode : Instr) ≠ .wr r v) ∧ (after .encode (msgV1 21)).flen ≠ (msgV1 21).flen :=
  ⟨exec_after (by decide), fun _ _ _ => Instr.noConfusion, by decide⟩

/-- OnlyReadsReturnData: a read of each kind changes the data returned. -/
theorem witness_Reads :
    (exec (.rd 0x07) (t3 0 1 0) = .next (after (.rd 0x07) (t3 0 1 0)) ∧ (after (.rd 0x07) (t3 0 1 0)).reply ≠ (t3 0 1 0).reply)
    ∧ exec (.rb 0x00E) (t3 0 1 0) = .next (after (.rb 0x00E) (t3 0 1 0))
    ∧ (after (.rb 0x00E) (t3 0 1 0)).reply ≠ (t3 0 1 0).reply :=
  ⟨⟨exec_after (by decide), by decide⟩, exec_after (by decide), by decide⟩

/-- OperationsDependOnRegistersAndBuffersOnly: both reads, and an operation, a register write, a write to OP and a byte
write. -/
theorem witness_Depend : exec (.rd 0x07) (t3 0 1 0) = .next (after (.rd 0x07) (t3 0 1 0))
    ∧ exec (.rb 0x00E) (t3 0 1 0) = .next (after (.rb 0x00E) (t3 0 1 0))
    ∧ exec .verify (t3 0x00E 2 0xC8) = .next (after .verify (t3 0x00E 2 0xC8))
    ∧ exec (.wr 0x02 7) (t3 0 1 0) = .next (after (.wr 0x02 7) (t3 0 1 0))
    ∧ exec (.wr 0x00 4) r33l = .next (after (.wr 0x00 4) r33l)
    ∧ exec (.wb 0x3FF 0x11) r33l = .next (after (.wb 0x3FF 0x11) r33l) :=
  ⟨exec_after (by decide), exec_after (by decide), exec_after (by decide), exec_after (by decide),
    exec_after (by decide), exec_after (by decide)⟩

/-- StepKeepsTheInvariant: a state that meets the invariant and whose step, a DECODE, answers a next state. -/
theorem witness_StepKeeps : ∃ s t : State, s.Inv ∧ step s = .next t :=
  ⟨withEvent (.action 0x100000000004) r33l, _, by decide, step_afterStep (by decide)⟩

end Sys2Proof.Tests
end

/-! # Proofs about the registers and about which instruction changes what (10_state.md) -/

/-! ## What an instruction changes, said once -/

namespace Sys2Proof

/-- The instructions that run an operation or report BAD_OP: the four rows of their own, and every write to OP (R20,
R174). -/
def Instr.IsOperation (i : Instr) : Prop :=
  i = .csum ∨ i = .verify ∨ i = .encode ∨ i = .decode ∨ ∃ v, i = .wr 0 v

theorem Instr.isOperation_of_row_or_word {i : Instr} (o : Operation) {v : HostWord}
    (h : i = o.toInstr ∨ i = .wr 0 v) : i.IsOperation := by
  rcases h with rfl | rfl
  · cases o <;> simp [Operation.toInstr, Instr.IsOperation]
  · exact .inr (.inr (.inr (.inr ⟨v, rfl⟩)))

end Sys2Proof

namespace Sys2Proof.Machine

/-- What an instruction that starts in `s` may leave behind, sorted by what it changes: every way an operation can end
without a result is one case, every result is one, and so is every host access. -/
inductive Effect (s : State) : Instr → State → Prop
  | status {i : Instr} (st : BitVec 10) (hi : i.IsOperation) : Effect s i (s.setStatus st)
  | checksum {i : Instr} (hi : i = .csum ∨ i = .wr 0 1) :
      Effect s i ((s.setCsOut (csum8 s.csRange)).setStatus 0x000#10)
  | frame {i : Instr} (hi : i = .encode ∨ i = .wr 0 3) (hn : s.txPlen.toNat ≤ 248) : Effect s i s.encoded
  | message {i : Instr} (hi : i = .decode ∨ i = .wr 0 4) : Effect s i s.decoded
  | reply {i : Instr} (p : Reply) (hi : (∃ r, i = .rd r) ∨ ∃ a, i = .rb a) : Effect s i (s.setReply p)
  | register (r : BitVec 8) (v : HostWord) (reg : Reg) (hr : r ≠ 0) : Effect s (.wr r v) (s.writeReg reg v)
  | byte (a : BitVec 12) (b : Byte) (ha : a.toNat ≤ 0x3FF) : Effect s (.wb a b) (s.writeByte a.toNat b)
  | nothing {i : Instr} (hi : (∃ r v, i = .wr r v ∧ r ≠ 0) ∨ ∃ a b, i = .wb a b) : Effect s i s

theorem effect_of_execCsum {i : Instr} {s t : State} (hi : i = .csum ∨ i = .wr 0 1) (h : execCsum s = .next t) :
    Effect s i t := by
  have hop := Instr.isOperation_of_row_or_word .csum hi
  rcases execCsum_inv h with ⟨_, rfl⟩ | ⟨_, _, rfl⟩ | ⟨_, _, rfl⟩
  exacts [.status _ hop, .status _ hop, .checksum hi]

theorem effect_of_execVerify {i : Instr} {s t : State} (hi : i = .verify ∨ i = .wr 0 2) (h : execVerify s = .next t) :
    Effect s i t := by
  have hop := Instr.isOperation_of_row_or_word .verify hi
  rcases execVerify_inv h with ⟨_, rfl⟩ | ⟨_, _, rfl⟩ | ⟨_, _, rfl⟩ <;> exact .status _ hop

theorem effect_of_execEncode {i : Instr} {s t : State} (hi : i = .encode ∨ i = .wr 0 3) (h : execEncode s = .next t) :
    Effect s i t := by
  have hop := Instr.isOperation_of_row_or_word .encode hi
  rcases execEncode_inv h with ⟨st, _, rfl⟩ | ⟨_, hn, _, rfl⟩
  exacts [.status st hop, .frame hi hn]

theorem effect_of_execDecode {i : Instr} {s t : State} (hi : i = .decode ∨ i = .wr 0 4) (h : execDecode s = .next t) :
    Effect s i t := by
  have hop := Instr.isOperation_of_row_or_word .decode hi
  rcases execDecode_inv h with ⟨st, _, rfl⟩ | ⟨_, _, _, _, d, _, rfl⟩ | ⟨_, _, _, _, _, _, rfl⟩
  exacts [.status st hop, .status _ hop, .message hi]

/-- Every instruction has one of these effects. -/
theorem effect_of_exec {i : Instr} {s t : State} (h : exec i s = .next t) : Effect s i t := by
  rcases exec_inv h with ⟨hi, h⟩ | ⟨hi, h⟩ | ⟨hi, h⟩ | ⟨hi, h⟩ | ⟨⟨v, rfl, _⟩, rfl⟩ | ⟨hi, p, rfl⟩
    | ⟨r, v, reg, rfl, hr, _, rfl⟩ | ⟨a, b, rfl, ha, rfl⟩ | ⟨hi, rfl⟩
  · exact effect_of_execCsum hi h
  · exact effect_of_execVerify hi h
  · exact effect_of_execEncode hi h
  · exact effect_of_execDecode hi h
  · exact .status _ (.inr (.inr (.inr (.inr ⟨v, rfl⟩))))
  · exact .reply p hi
  · exact .register r v reg hr
  · exact .byte a b ha
  · exact .nothing hi

/-! ### The registers an effect leaves alone -/

theorem Effect.isOperation_of_status_ne {i : Instr} {s t : State} (h : Effect s i t) (hne : t.status ≠ s.status) :
    i.IsOperation := by
  cases h with
  | status st hi => exact hi
  | checksum hi => exact Instr.isOperation_of_row_or_word .csum hi
  | frame hi _ => exact Instr.isOperation_of_row_or_word .encode hi
  | message hi => exact Instr.isOperation_of_row_or_word .decode hi
  | register r v reg _ => exact absurd (State.writeReg_status s reg v) hne
  | reply | byte | nothing => exact absurd rfl hne

/-- The six registers that DECODE fills (R15 to R19). -/
def State.rxRegisters (s : State) : BitVec 6 × Byte × BitVec 6 × BitVec 9 × BitVec 2 × BitVec 2 :=
  (s.rxNetfn, s.rxCmd, s.rxSeq, s.rxPlen, s.rxTlun, s.rxSlun)

theorem Effect.rxRegisters_eq_or_decoded {i : Instr} {s t : State} (h : Effect s i t) :
    t.rxRegisters = s.rxRegisters ∨ ((i = .decode ∨ i = .wr 0 4) ∧ statusErr t.status = 0) := by
  cases h with
  | message hi => exact .inr ⟨hi, statusErr_statusWord ..⟩
  | register r v reg _ => exact .inl (by simp [State.rxRegisters])
  | status | checksum | frame | reply | byte | nothing => exact .inl rfl

theorem Effect.csum_of_csOut_ne {i : Instr} {s t : State} (h : Effect s i t) (hne : t.csOut ≠ s.csOut) :
    (i = .csum ∨ i = .wr 0 1) ∧ t.status = 0 := by
  cases h with
  | checksum hi => exact ⟨hi, rfl⟩
  | register r v reg _ => exact absurd (State.writeReg_csOut s reg v) hne
  | status | frame | message | reply | byte | nothing => exact absurd rfl hne

/-- The registers that only the host writes: the input registers of R34 without FLEN. -/
def State.hostRegisters (s : State) :
    BitVec 16 × BitVec 16 × BitVec 16 × BitVec 8 × BitVec 8 × BitVec 8 × BitVec 32 × BitVec 16 :=
  (s.fcap, s.csBase, s.csLen, s.csIn, s.txNetfn, s.txCmd, s.txSeq, s.txPlen)

theorem Effect.hostRegisters_eq {i : Instr} {s t : State} (h : Effect s i t) (hw : ∀ r v, r ≠ 0 → i ≠ .wr r v) :
    t.hostRegisters = s.hostRegisters := by
  cases h with
  | register r v reg hr => exact absurd rfl (hw r v hr)
  | status | checksum | frame | message | reply | byte | nothing => rfl

theorem Effect.flen_eq_or_encoded {i : Instr} {s t : State} (h : Effect s i t) (hw : ∀ r v, r ≠ 0 → i ≠ .wr r v) :
    t.flen = s.flen ∨ ((i = .encode ∨ i = .wr 0 3) ∧ t.status = 0) := by
  cases h with
  | frame hi _ => exact .inr ⟨hi, rfl⟩
  | register r v reg hr => exact absurd rfl (hw r v hr)
  | status | checksum | message | reply | byte | nothing => exact .inl rfl

/-! ### The bytes an effect leaves alone -/

/-- ENCODE changes no byte behind its frame. -/
theorem lt_of_encoded_readByte_ne {s : State} {a : Nat} (hne : s.encoded.readByte a ≠ s.readByte a) :
    a < 21 + s.txPlen.toNat := by
  by_contra hlt
  exact hne (by rw [encoded_readByte, if_neg hlt])

/-- RX_PLEN after a DECODE that succeeds (R151); its 9 bits hold the difference of two bytes. -/
theorem decoded_rxPlen_toNat (s : State) : s.decoded.rxPlen.toNat = (s.readByte 13).toNat - 7 := by
  have hb := (s.readByte 13).isLt
  have hp : s.decoded.rxPlen = BitVec.ofNat 9 ((s.readByte 13).toNat - 7) := by
    simp [State.commitMessage, State.rxPayloadLen, State.bodyLen, bodyOverhead, fb_eq]
  rw [hp, BitVec.toNat_ofNat]
  omega

/-- DECODE changes no byte outside `RXP[0..RX_PLEN)`. -/
theorem mem_rxp_of_decoded_readByte_ne {s : State} {a : Nat} (hne : s.decoded.readByte a ≠ s.readByte a) :
    0x300 ≤ a ∧ a < 0x300 + s.decoded.rxPlen.toNat := by
  rw [decoded_rxPlen_toNat]
  by_contra hout
  exact hne (by rw [State.decoded, State.setStatus_readByte, commitMessage_readByte, if_neg hout])

/-- A byte write changes no other byte. -/
theorem eq_of_writeByte_readByte_ne {s : State} {x a : Nat} {b : Byte}
    (hne : (s.writeByte x b).readByte a ≠ s.readByte a) : a = x := by
  by_contra hax
  exact hne (by rw [State.readByte_writeByte, if_neg hax])

theorem Effect.region_of_readByte_ne {i : Instr} {s t : State} (h : Effect s i t) {a : Nat}
    (hne : t.readByte a ≠ s.readByte a) :
    ((i = .encode ∨ i = .wr 0 3) ∧ a < 21 + s.txPlen.toNat ∧ a ≤ 268)
    ∨ ((i = .decode ∨ i = .wr 0 4) ∧ 0x300 ≤ a ∧ a < 0x300 + t.rxPlen.toNat ∧ a ≤ 0x3F7)
    ∨ ∃ x b, i = .wb x b ∧ a = x.toNat ∧ a ≤ 0x3FF := by
  cases h with
  | frame hi hn =>
    have hlt := lt_of_encoded_readByte_ne hne
    exact .inl ⟨hi, hlt, by omega⟩
  | message hi =>
    obtain ⟨hlo, hhi⟩ := mem_rxp_of_decoded_readByte_ne hne
    have hmax : s.decoded.rxPlen.toNat ≤ 248 := by
      have hb := (s.readByte 13).isLt
      rw [decoded_rxPlen_toNat]
      omega
    exact .inr (.inl ⟨hi, hlo, hhi, by omega⟩)
  | byte x b hx =>
    have hax := eq_of_writeByte_readByte_ne hne
    exact .inr (.inr ⟨x, b, rfl, hax, hax ▸ hx⟩)
  | register r v reg _ => exact absurd (State.writeReg_readByte s reg v a) hne
  | status | checksum | reply | nothing => exact absurd rfl hne

end Sys2Proof.Machine

namespace Sys2Proof.Proofs

open Sys2Proof.Machine

/-- Settles O43: the effects that change STATUS are those of an operation. -/
theorem onlyOperationsChangeStatus : Obligations.OnlyOperationsChangeStatus := by
  intro i s t h hne
  exact (effect_of_exec h).isOperation_of_status_ne hne

/-- Settles O45. -/
theorem messageRegistersChangeOnlyByDecode : Obligations.MessageRegistersChangeOnlyByDecode := by
  intro i s t h
  refine (effect_of_exec h).rxRegisters_eq_or_decoded.imp_left fun heq => ?_
  simpa only [State.rxRegisters, Prod.mk.injEq] using heq

/-- Settles O46. -/
theorem checksumResultChangesOnlyByCsum : Obligations.ChecksumResultChangesOnlyByCsum := by
  intro i s t h hne
  exact (effect_of_exec h).csum_of_csOut_ne hne

/-- Settles O47: FLEN apart from the registers that no operation writes. -/
theorem inputRegistersChangeOnlyByTheHost : Obligations.InputRegistersChangeOnlyByTheHost := by
  intro i s t h hw
  have hregs := (effect_of_exec h).hostRegisters_eq hw
  simp only [State.hostRegisters, Prod.mk.injEq] at hregs
  obtain ⟨h1, h2, h3, h4, h5, h6, h7, h8⟩ := hregs
  exact ⟨h1, h2, h3, h4, h5, h6, h7, h8, (effect_of_exec h).flen_eq_or_encoded hw⟩

/-- Settles O48. -/
theorem writesStayInTheirRegion : Obligations.WritesStayInTheirRegion := by
  intro i s t h a hne
  exact (effect_of_exec h).region_of_readByte_ne hne

end Sys2Proof.Proofs

/-! ## A register read after a register write (R10, R51) -/

namespace Sys2Proof.Machine

/-- R10: the number of an implemented register, the inverse of `Reg.ofNumber`. -/
def Reg.number : Reg → BitVec 8
  | .op => 0x00
  | .status => 0x01
  | .fcap => 0x02
  | .flen => 0x03
  | .csBase => 0x04
  | .csLen => 0x05
  | .csIn => 0x06
  | .csOut => 0x07
  | .txNetfn => 0x08
  | .txCmd => 0x09
  | .txSeq => 0x0A
  | .txPlen => 0x0B
  | .rxNetfn => 0x0C
  | .rxCmd => 0x0D
  | .rxSeq => 0x0E
  | .rxPlen => 0x0F
  | .rxTlun => 0x10
  | .rxSlun => 0x11

theorem Reg.eq_number_of_ofNumber {r : BitVec 8} {reg : Reg} (h : Reg.ofNumber r = some reg) : r = reg.number := by
  revert r
  cases reg <;> decide

theorem exec_rd_of_some {r : BitVec 8} {reg : Reg} (h : Reg.ofNumber r = some reg) (s : State) :
    exec (.rd r) s = .next (s.setReply (.word (s.readReg reg))) := by
  simp [exec, execRd, h]

theorem exec_rd_of_none {r : BitVec 8} (h : Reg.ofNumber r = none) (s : State) :
    exec (.rd r) s = .next (s.setReply (.word 0#32)) := by
  simp [exec, execRd, h]

/-- Keeping the low `w` bits of a word and reading them back zero-extended (R170, R171), on numbers. -/
theorem setWidth_setWidth_eq_ofNat (v : HostWord) (w : Nat) :
    (v.setWidth w).setWidth 32 = BitVec.ofNat 32 (v.toNat % 2 ^ w) := by
  apply BitVec.eq_of_toNat_eq
  simp

/-- What a register reads as right after a write to it: the low 16 or 8 bits, the whole word, or what it held. -/
theorem State.readReg_writeReg_same (s : State) (reg : Reg) (v : HostWord) :
    (s.writeReg reg v).readReg reg =
      match reg with
      | .fcap | .flen | .csBase | .csLen | .txPlen => BitVec.ofNat 32 (v.toNat % 2 ^ 16)
      | .csIn | .txNetfn | .txCmd => BitVec.ofNat 32 (v.toNat % 2 ^ 8)
      | .txSeq => v
      | _ => s.readReg reg := by
  cases reg with
  | fcap | flen | csBase | csLen | txPlen => exact setWidth_setWidth_eq_ofNat v 16
  | csIn | txNetfn | txCmd => exact setWidth_setWidth_eq_ofNat v 8
  | txSeq | op | status | csOut | rxNetfn | rxCmd | rxSeq | rxPlen | rxTlun | rxSlun => rfl

end Sys2Proof.Machine

namespace Sys2Proof.Proofs

open Sys2Proof.Machine

/-- Settles O17: a number other than OP's names a register, which is read back, or is reserved and reads 0 twice. -/
theorem registerReadAfterWrite : Obligations.RegisterReadAfterWrite := by
  intro r v s hr
  rcases execWr_cases r v s with ⟨rfl, _⟩ | ⟨_, reg, hop, hreg, hwr⟩ | ⟨_, hnone, hwr⟩
  · exact absurd rfl hr
  · refine ⟨_, _, hwr, exec_rd_of_some hreg _, ?_⟩
    rw [exec_rd_of_some hreg, State.setReply_reply, State.readReg_writeReg_same]
    obtain rfl := Reg.eq_number_of_ofNumber hreg
    cases reg with
    | op => exact absurd rfl hop
    | _ => rfl
  · refine ⟨_, _, hwr, exec_rd_of_none hnone s, ?_⟩
    have hreserved := (ofNumber_eq_none r).1 hnone
    rw [if_neg (by bv_omega), if_neg (by bv_omega), if_neg (by bv_omega)]
    exact exec_rd_of_none hnone s

end Sys2Proof.Proofs

/-! ## The flags VOK and AUTH_WARN (R29) -/

namespace Sys2Proof.Machine

/-- VOK is bit 8 and AUTH_WARN bit 9 of STATUS (R21). -/
theorem flags_false_of_lt {st : BitVec 10} (h : st.toNat < 0x100) :
    statusVok st = false ∧ statusAuthWarn st = false :=
  ⟨Nat.testBit_lt_two_pow h, Nat.testBit_lt_two_pow (by omega)⟩

theorem execCsum_flags {s t : State} (h : execCsum s = .next t) :
    statusVok t.status = false ∧ statusAuthWarn t.status = false := by
  rcases execCsum_inv h with ⟨_, rfl⟩ | ⟨_, _, rfl⟩ | ⟨_, _, rfl⟩ <;> exact flags_false_of_lt (by simp)

theorem execEncode_flags {s t : State} (h : execEncode s = .next t) :
    statusVok t.status = false ∧ statusAuthWarn t.status = false := by
  have hcodes : ∀ st ∈ [0x021#10, 0x029#10, 0x031#10, 0x03A#10], st.toNat < 0x100 := by decide
  rcases execEncode_inv h with ⟨st, hst, rfl⟩ | ⟨_, _, _, rfl⟩
  exacts [flags_false_of_lt (hcodes st hst), flags_false_of_lt (by simp)]

theorem execVerify_authWarn {s t : State} (h : execVerify s = .next t) : statusAuthWarn t.status = false := by
  rcases execVerify_inv h with ⟨_, rfl⟩ | ⟨_, _, rfl⟩ | ⟨_, _, rfl⟩
  exacts [(flags_false_of_lt (by simp)).2, (flags_false_of_lt (by simp)).2, statusAuthWarn_statusWord ..]

/-- R106: VOK is the result of the sum, and 0 when the range is refused. -/
theorem execVerify_vok {s t : State} (h : execVerify s = .next t) : statusVok t.status = true ↔
    s.csLen.toNat ≠ 0 ∧ s.csBase.toNat + s.csLen.toNat ≤ 1024 ∧ (byteSum s.csRange + s.csIn.toNat) % 256 = 0 := by
  rcases execVerify_inv h with ⟨hlen, rfl⟩ | ⟨_, hend, rfl⟩ | ⟨hlen, hend, rfl⟩
  · have hvok := (flags_false_of_lt (st := 0x011#10) (by decide)).1
    simp [hvok, hlen]
  · have hvok := (flags_false_of_lt (st := 0x019#10) (by decide)).1
    simp [hvok, Nat.not_le.2 hend]
  · rw [State.setStatus_status, statusVok_statusWord, vsum8_iff]
    exact ⟨fun hsum => ⟨hlen, hend, hsum⟩, fun ⟨_, _, hsum⟩ => hsum⟩

theorem execDecode_vok {s t : State} (h : execDecode s = .next t) : statusVok t.status = false := by
  have hcodes : ∀ st ∈ [0x019#10, 0x045#10, 0x04D#10, 0x055#10], st.toNat < 0x100 := by decide
  rcases execDecode_inv h with ⟨st, hst, rfl⟩ | ⟨_, _, _, _, d, _, rfl⟩ | ⟨_, _, _, _, _, _, rfl⟩
  exacts [(flags_false_of_lt (hcodes st hst)).1, statusVok_statusWord .., statusVok_statusWord ..]

/-- R146: AUTH_WARN is decided once steps 0 to 2 have passed, whatever the later steps find. -/
theorem execDecode_authWarn {s t : State} (h : execDecode s = .next t) :
    statusAuthWarn t.status = true ↔ s.decodeEarlyError = none ∧ s.authWarn = true := by
  cases hearly : s.decodeEarlyError with
  | some kd =>
    rw [execDecode_of_early hearly] at h
    cases h
    simp
  | none =>
    cases hlate : s.decodeLateError with
    | some kd =>
      rw [execDecode_of_late hearly hlate] at h
      cases h
      simp
    | none =>
      rw [execDecode_of_ok hearly hlate] at h
      cases h
      simp

end Sys2Proof.Machine

namespace Sys2Proof.Proofs

open Sys2Proof.Machine

/-- Settles O41: CSUM and ENCODE leave both flags 0, VERIFY decides VOK, DECODE decides AUTH_WARN. -/
theorem flagsSayWhatTheLastOperationFound : Obligations.FlagsSayWhatTheLastOperationFound := by
  rintro i s t (rfl | rfl | rfl | rfl) h
  · obtain ⟨hvok, hwarn⟩ := execCsum_flags h
    simp [hvok, hwarn]
  · have hvok := execVerify_vok h
    rw [State.csRange, byteSum_readBytes] at hvok
    simp [hvok, execVerify_authWarn h]
  · obtain ⟨hvok, hwarn⟩ := execEncode_flags h
    simp [hvok, hwarn]
  · have hwarn := execDecode_authWarn h
    rw [decodeEarlyError_eq_none, authWarn_eq, decide_eq_true_eq] at hwarn
    simp [execDecode_vok h, hwarn, and_assoc]

end Sys2Proof.Proofs

/-! ## What no operation reads: STATUS, the script, the data of the read before (R21, R31) -/

namespace Sys2Proof.Machine

/-- A result with its next state changed. -/
def mapNext (f : State → State) : Result → Result
  | .next s => .next (f s)
  | .fault r => .fault r
  | .refused r => .refused r

/-- The state with another script and other data of the host's latest read. -/
def State.withHost (s : State) (sc : List HostEvent) (rp : Option Reply) : State := { s with script := sc, reply := rp }

/-! ### An operation answers the same whatever these three fields hold, and hands on the last two -/

section Unread

variable (s : State) (st : BitVec 10) (sc : List HostEvent) (rp : Option Reply)

theorem execCsum_unread :
    execCsum ((s.setStatus st).withHost sc rp) = mapNext (·.withHost sc rp) (execCsum s) := by
  have hcheck : ((s.setStatus st).withHost sc rp).csRangeError = s.csRangeError := rfl
  unfold execCsum
  rw [hcheck]
  cases s.csRangeError <;> rfl

theorem execVerify_unread :
    execVerify ((s.setStatus st).withHost sc rp) = mapNext (·.withHost sc rp) (execVerify s) := by
  have hcheck : ((s.setStatus st).withHost sc rp).csRangeError = s.csRangeError := rfl
  have hrange : ((s.setStatus st).withHost sc rp).csRange = s.csRange := rfl
  have hin : ((s.setStatus st).withHost sc rp).csIn = s.csIn := rfl
  unfold execVerify
  rw [hcheck, hrange, hin]
  cases s.csRangeError <;> rfl

theorem execEncode_unread :
    execEncode ((s.setStatus st).withHost sc rp) = mapNext (·.withHost sc rp) (execEncode s) := by
  have hcheck : ((s.setStatus st).withHost sc rp).encodeError = s.encodeError := rfl
  have hframe : ((s.setStatus st).withHost sc rp).txFrame = s.txFrame := rfl
  have hlen : ((s.setStatus st).withHost sc rp).txPlen = s.txPlen := rfl
  unfold execEncode
  rw [hcheck, hframe, hlen]
  generalize s.txFrame = frame, frameOverhead + s.txPlen.toNat = n
  cases s.encodeError <;> rfl

theorem execDecode_unread :
    execDecode ((s.setStatus st).withHost sc rp) = mapNext (·.withHost sc rp) (execDecode s) := by
  have hearly : ((s.setStatus st).withHost sc rp).decodeEarlyError = s.decodeEarlyError := rfl
  have hlate : ((s.setStatus st).withHost sc rp).decodeLateError = s.decodeLateError := rfl
  unfold execDecode
  rw [hearly, hlate]
  cases s.decodeEarlyError with
  | some kd => rfl
  | none => cases s.decodeLateError <;> rfl

theorem dispatchOp_unread (w : HostWord) :
    dispatchOp w ((s.setStatus st).withHost sc rp) = mapNext (·.withHost sc rp) (dispatchOp w s) := by
  unfold dispatchOp
  cases decodeOpWord w with
  | error why => rfl
  | ok o =>
    cases o with
    | csum => exact execCsum_unread s st sc rp
    | verify => exact execVerify_unread s st sc rp
    | encode => exact execEncode_unread s st sc rp
    | decode => exact execDecode_unread s st sc rp

theorem exec_unread {i : Instr} (hi : i.IsOperation) :
    exec i ((s.setStatus st).withHost sc rp) = mapNext (·.withHost sc rp) (exec i s) := by
  rcases hi with rfl | rfl | rfl | rfl | ⟨v, rfl⟩
  exacts [execCsum_unread s st sc rp, execVerify_unread s st sc rp, execEncode_unread s st sc rp,
    execDecode_unread s st sc rp, dispatchOp_unread s st sc rp v]

/-! ### The host actions -/

theorem State.writeReg_withHost (reg : Reg) (v : HostWord) :
    (s.withHost sc rp).writeReg reg v = (s.writeReg reg v).withHost sc rp := by
  cases reg <;> rfl

theorem State.readReg_withHost (reg : Reg) : (s.withHost sc rp).readReg reg = s.readReg reg := by
  cases reg <;> rfl

theorem execWr_withHost (r : BitVec 8) (v : HostWord) :
    execWr r v (s.withHost sc rp) = mapNext (·.withHost sc rp) (execWr r v s) := by
  unfold execWr
  cases Reg.ofNumber r with
  | none => rfl
  | some reg =>
    cases reg with
    | op => exact dispatchOp_unread s s.status sc rp v
    | _ => rfl

theorem execWb_withHost (a : BitVec 12) (b : Byte) :
    execWb a b (s.withHost sc rp) = mapNext (·.withHost sc rp) (execWb a b s) := by
  unfold execWb
  split <;> rfl

/-- A read replaces the data of the read before and hands on the script. -/
theorem execRd_withHost (r : BitVec 8) :
    execRd r (s.withHost sc rp) = mapNext (fun t => t.withHost sc t.reply) (execRd r s) := by
  unfold execRd
  cases Reg.ofNumber r with
  | none => rfl
  | some reg =>
    simp only [State.readReg_withHost]
    rfl

theorem execRb_withHost (a : BitVec 12) :
    execRb a (s.withHost sc rp) = mapNext (fun t => t.withHost sc t.reply) (execRb a s) := by
  unfold execRb
  split <;> rfl

theorem exec_read_withHost {i : Instr} (hi : (∃ r, i = .rd r) ∨ ∃ a, i = .rb a) :
    exec i (s.withHost sc rp) = mapNext (fun t => t.withHost sc t.reply) (exec i s) := by
  rcases hi with ⟨r, rfl⟩ | ⟨a, rfl⟩
  exacts [execRd_withHost s sc rp r, execRb_withHost s sc rp a]

theorem exec_not_read_withHost {i : Instr} (hi : ¬((∃ r, i = .rd r) ∨ ∃ a, i = .rb a)) :
    exec i (s.withHost sc rp) = mapNext (·.withHost sc rp) (exec i s) := by
  cases i with
  | csum => exact execCsum_unread s s.status sc rp
  | verify => exact execVerify_unread s s.status sc rp
  | encode => exact execEncode_unread s s.status sc rp
  | decode => exact execDecode_unread s s.status sc rp
  | wr r v => exact execWr_withHost s sc rp r v
  | wb a b => exact execWb_withHost s sc rp a b
  | rd r => exact absurd (.inl ⟨r, rfl⟩) hi
  | rb a => exact absurd (.inr ⟨a, rfl⟩) hi

end Unread

end Sys2Proof.Machine

namespace Sys2Proof.Proofs

open Sys2Proof.Machine

/-- Settles O50. -/
theorem operationsDependOnRegistersAndBuffersOnly : Obligations.OperationsDependOnRegistersAndBuffersOnly := by
  intro i s t sc rp h
  refine ⟨fun hi => ?_, fun hi => ?_⟩
  · exact (exec_read_withHost s sc rp hi).trans (congrArg (mapNext _) h)
  · exact (exec_not_read_withHost s sc rp hi).trans (congrArg (mapNext _) h)

/-- Settles O42: with the old STATUS or another one, the operation answers what it answers from `s`. -/
theorem operationsOverwriteAllOfStatus : Obligations.OperationsOverwriteAllOfStatus := by
  intro i s st hi
  exact (exec_unread s st s.script s.reply hi).trans (exec_unread s s.status s.script s.reply hi).symm

end Sys2Proof.Proofs

/-! ## A step on an operation's word (R20, R88), and the state after reset (R33) -/

namespace Sys2Proof.Machine

/-- A step runs the script's next host action (R86). -/
theorem step_of_action {s : State} {w : ActionWord} {rest : List HostEvent} {i : Instr}
    (hs : s.script = .action w :: rest) (hd : decodeAction w = .ok i) : step s = exec i { s with script := rest } := by
  simp [step, State.takeEvent, hs, runAction, hd]

/-- The host action that carries an operation's word is the write of that word to OP (R88). -/
theorem decodeAction_opWord (o : Operation) :
    decodeAction (Encoded.toAction (.opWord (encodeOpWord o))) = .ok (.wr 0 (encodeOpWord o)) := by
  cases o <;> rfl

/-- Writing an operation's word to OP is that operation (R174). -/
theorem exec_wr_op_encodeOpWord (o : Operation) (s : State) : exec (.wr 0 (encodeOpWord o)) s = exec o.toInstr s := by
  cases o <;> rfl

end Sys2Proof.Machine

namespace Sys2Proof.Proofs

open Sys2Proof.Machine

/-- Settles O12. -/
theorem stepRunsTheOperationWrittenToOp : Obligations.StepRunsTheOperationWrittenToOp := by
  intro s rest o hs
  rw [step_of_action hs (decodeAction_opWord o), exec_wr_op_encodeOpWord]

/-- Settles O8: the reset state by its definition, its two flags because its STATUS is below 0x100. -/
theorem resetLeavesEveryRegisterZero : Obligations.ResetLeavesEveryRegisterZero := by
  obtain ⟨hvok, hwarn⟩ := flags_false_of_lt (st := State.reset.status) (by decide)
  exact ⟨rfl, rfl, rfl, hvok, hwarn, rfl, rfl, rfl, rfl, rfl, rfl, rfl, rfl, rfl, rfl, rfl, rfl, rfl, rfl, rfl, rfl⟩

/-- Settles O51. -/
theorem resetMeetsTheInvariant : Obligations.ResetMeetsTheInvariant :=
  ⟨State.reset_mem_wf, by decide, by decide⟩

end Sys2Proof.Proofs

/-! # Proofs about the buffer space, what a host read does, and the invariant (20_memory.md) -/

/-! ## What every step keeps (R40, R18, R194) -/

namespace Sys2Proof.Machine

/-! ### The canonical form of the buffer space and RX_PLEN, per effect -/

/-- The payload length that DECODE takes from a frame is at most 248: the length field is one byte (R151). -/
theorem rxPayloadLen_le (s : State) : s.rxPayloadLen ≤ 248 := by
  have hb := (s.fb 13).isLt
  simp only [State.rxPayloadLen, State.bodyLen, bodyOverhead]
  omega

theorem fbRange_length (s : State) (i j : Nat) : (s.fbRange i j).length = j - i := by
  rw [fbRange_eq, State.readBytes_length]

/-- A payload committed to RXP ends inside the buffer space. -/
theorem commitMessage_mem_wf {s : State} (h : Memory.wf s.mem = true) : Memory.wf s.commitMessage.mem = true := by
  have hn := rxPayloadLen_le s
  rw [State.commitMessage, State.writeBytes_mem, State.setMessage_mem]
  apply Memory.wf_writeList h
  rw [fbRange_length, rxpBase, bufSize]
  omega

/-- A frame whose payload passed ENCODE's checks ends inside the buffer space. -/
theorem encoded_mem_wf {s : State} (hn : s.txPlen.toNat ≤ 248) (h : Memory.wf s.mem = true) :
    Memory.wf s.encoded.mem = true := by
  rw [State.setStatus_mem, State.setFlen_mem, State.writeBytes_mem]
  apply Memory.wf_writeList h
  rw [txFrame_length, fbBase, bufSize]
  omega

theorem Effect.mem_wf {i : Instr} {s t : State} (h : Effect s i t) (hwf : Memory.wf s.mem = true) :
    Memory.wf t.mem = true := by
  cases h with
  | frame _ hn => exact encoded_mem_wf hn hwf
  | message => exact commitMessage_mem_wf hwf
  | register r v reg _ => rwa [State.writeReg_mem]
  | byte a b ha => exact Memory.wf_write b hwf (Nat.lt_succ_of_le ha)
  | status | checksum | reply | nothing => exact hwf

theorem Effect.rxPlen_le {i : Instr} {s t : State} (h : Effect s i t) (hle : s.rxPlen.toNat ≤ 248) :
    t.rxPlen.toNat ≤ 248 := by
  cases h with
  | message =>
    have hb := (s.readByte 13).isLt
    rw [decoded_rxPlen_toNat]
    omega
  | register r v reg _ => rwa [State.writeReg_rxPlen]
  | status | checksum | frame | reply | byte | nothing => exact hle

/-! ### The values of STATUS, per operation -/

theorem legalStatus_of_execCsum {s t : State} (h : execCsum s = .next t) : legalStatus t.status := by
  rcases execCsum_inv h with ⟨_, rfl⟩ | ⟨_, _, rfl⟩ | ⟨_, _, rfl⟩ <;> rw [State.setStatus_status] <;> decide

theorem legalStatus_verified (v : Bool) : legalStatus (statusWord .ok .noError v false) := by
  cases v <;> decide

theorem legalStatus_of_execVerify {s t : State} (h : execVerify s = .next t) : legalStatus t.status := by
  rcases execVerify_inv h with ⟨_, rfl⟩ | ⟨_, _, rfl⟩ | ⟨_, _, rfl⟩ <;> rw [State.setStatus_status]
  · decide
  · decide
  · exact legalStatus_verified _

theorem legalStatus_of_execEncode {s t : State} (h : execEncode s = .next t) : legalStatus t.status := by
  have hfail : [0x021#10, 0x029#10, 0x031#10, 0x03A#10] ⊆ legalStatusValues := by decide
  rcases execEncode_inv h with ⟨st, hst, rfl⟩ | ⟨_, _, _, rfl⟩ <;> rw [State.setStatus_status]
  · exact hfail hst
  · decide

theorem legalStatus_decoded (w : Bool) : legalStatus (statusWord .ok .noError false w) := by
  cases w <;> decide

/-- The failures that DECODE reports behind the authentication type, with or without AUTH_WARN (R146). -/
theorem legalStatus_late_failure (w : Bool) :
    ∀ d ∈ [Detail.bodyOverrun, .hdrCsum, .bodyLenSmall, .dataCsum], legalStatus (statusWord .protocol d false w) := by
  cases w <;> decide

theorem legalStatus_of_execDecode {s t : State} (h : execDecode s = .next t) : legalStatus t.status := by
  have hearly : [0x019#10, 0x045#10, 0x04D#10, 0x055#10] ⊆ legalStatusValues := by decide
  rcases execDecode_inv h with ⟨st, hst, rfl⟩ | ⟨_, _, _, _, d, hd, rfl⟩ | ⟨_, _, _, _, _, _, rfl⟩ <;>
    rw [State.setStatus_status]
  · exact hearly hst
  · exact legalStatus_late_failure _ d hd
  · exact legalStatus_decoded _

/-- An operation and BAD_OP leave a value of R194, whatever STATUS held; a host access leaves STATUS alone. -/
theorem legalStatus_of_exec {i : Instr} {s t : State} (h : exec i s = .next t) (hs : legalStatus s.status) :
    legalStatus t.status := by
  rcases exec_inv h with ⟨_, h⟩ | ⟨_, h⟩ | ⟨_, h⟩ | ⟨_, h⟩ | ⟨_, rfl⟩ | ⟨_, p, rfl⟩ | ⟨r, v, reg, _, _, _, rfl⟩
    | ⟨a, b, _, _, rfl⟩ | ⟨_, rfl⟩
  · exact legalStatus_of_execCsum h
  · exact legalStatus_of_execVerify h
  · exact legalStatus_of_execEncode h
  · exact legalStatus_of_execDecode h
  · rw [State.setStatus_status]; decide
  · exact hs
  · rwa [State.writeReg_status]
  · exact hs
  · exact hs

/-! ### One instruction, one event -/

theorem exec_keeps_inv {i : Instr} {s t : State} (hs : s.Inv) (h : exec i s = .next t) : t.Inv := by
  obtain ⟨hwf, hle, hlegal⟩ := hs
  have heff := effect_of_exec h
  exact ⟨heff.mem_wf hwf, heff.rxPlen_le hle, legalStatus_of_exec h hlegal⟩

/-- The external reset restores the invariant from any state: the registers and bytes are those of the reset state. -/
theorem applyReset_inv (s : State) : s.applyReset.Inv := Proofs.resetMeetsTheInvariant

end Sys2Proof.Machine

namespace Sys2Proof.Proofs

open Sys2Proof.Machine

/-- Settles O52: an idle step changes nothing, a reset restores the invariant, an instruction keeps it; that the script
moves on does not touch it. -/
theorem stepKeepsTheInvariant : Obligations.StepKeepsTheInvariant := by
  intro s t hs h
  rcases step_inv h with ⟨_, rfl⟩ | ⟨rest, _, rfl⟩ | ⟨w, rest, i, _, _, hexec⟩
  · exact hs
  · exact applyReset_inv _
  · exact exec_keeps_inv (s := { s with script := rest }) hs hexec

end Sys2Proof.Proofs

/-! ## A host read changes the data returned and nothing else (R49) -/

namespace Sys2Proof.Machine

theorem not_isOperation_of_read {i : Instr} (hi : (∃ r, i = .rd r) ∨ ∃ a, i = .rb a) : ¬i.IsOperation := by
  rcases hi with ⟨r, rfl⟩ | ⟨a, rfl⟩ <;> simp [Instr.IsOperation]

theorem Effect.script_eq {i : Instr} {s t : State} (h : Effect s i t) : t.script = s.script := by
  cases h with
  | register r v reg _ => exact State.writeReg_script s reg v
  | status | checksum | frame | message | reply | byte | nothing => rfl

theorem Effect.resets_eq {i : Instr} {s t : State} (h : Effect s i t) : t.resets = s.resets := by
  cases h with
  | register r v reg _ => exact State.writeReg_resets s reg v
  | status | checksum | frame | message | reply | byte | nothing => rfl

theorem Effect.read_of_reply_ne {i : Instr} {s t : State} (h : Effect s i t) (hne : t.reply ≠ s.reply) :
    (∃ r, i = .rd r) ∨ ∃ a, i = .rb a := by
  cases h with
  | reply p hi => exact hi
  | register r v reg _ => exact absurd (State.writeReg_reply s reg v) hne
  | status | checksum | frame | message | byte | nothing => exact absurd rfl hne

theorem Effect.eq_withReply_of_read {i : Instr} {s t : State} (h : Effect s i t)
    (hi : (∃ r, i = .rd r) ∨ ∃ a, i = .rb a) : t = { s with reply := t.reply } := by
  have hop := not_isOperation_of_read hi
  cases h with
  | status _ hi' => exact absurd hi' hop
  | checksum hi' => exact absurd (Instr.isOperation_of_row_or_word .csum hi') hop
  | frame hi' _ => exact absurd (Instr.isOperation_of_row_or_word .encode hi') hop
  | message hi' => exact absurd (Instr.isOperation_of_row_or_word .decode hi') hop
  | register | byte => simp at hi
  | reply | nothing => rfl

end Sys2Proof.Machine

namespace Sys2Proof.Proofs

open Sys2Proof.Machine

/-- Settles O49. -/
theorem onlyReadsReturnData : Obligations.OnlyReadsReturnData := by
  intro i s t h
  have heff := effect_of_exec h
  exact ⟨heff.script_eq, heff.resets_eq, heff.eq_withReply_of_read, heff.read_of_reply_ne⟩

end Sys2Proof.Proofs

/-! ## Reading a buffer byte (R47, R51) -/

namespace Sys2Proof.Machine

theorem exec_rb_of_le {a : BitVec 12} (ha : a.toNat ≤ 0x3FF) (s : State) :
    exec (.rb a) s = .next (s.setReply (.byte (s.readByte a.toNat))) := if_pos ha

theorem exec_wb_of_le {a : BitVec 12} (ha : a.toNat ≤ 0x3FF) (b : Byte) (s : State) :
    exec (.wb a b) s = .next (s.writeByte a.toNat b) := if_pos ha

theorem exec_wb_of_gt {a : BitVec 12} (ha : ¬a.toNat ≤ 0x3FF) (b : Byte) (s : State) :
    exec (.wb a b) s = .next s := if_neg ha

/-- A byte write completes and leaves the bytes at every other address as they were, whether or not its own address is
inside the buffer space. -/
theorem exec_wb_readByte_ne {a x : BitVec 12} (hx : x ≠ a) (c : Byte) (s : State) :
    ∃ t, exec (.wb x c) s = .next t ∧ t.readByte a.toNat = s.readByte a.toNat := by
  by_cases hin : x.toNat ≤ 0x3FF
  · refine ⟨_, exec_wb_of_le hin c s, ?_⟩
    have hne : a.toNat ≠ x.toNat := fun heq => hx (BitVec.eq_of_toNat_eq heq.symm)
    rw [State.readByte_writeByte, if_neg hne]
  · exact ⟨s, exec_wb_of_gt hin c s, rfl⟩

theorem Memory.lookup_of_unlisted {m : Memory} {a : Nat} (h : ∀ c ∈ m, c.1 ≠ a) : Memory.lookup m a = none := by
  induction m with
  | nil => rfl
  | cons c m ih =>
    obtain ⟨x, y⟩ := c
    have hx : x ≠ a := h _ List.mem_cons_self
    rw [Memory.lookup_cons, if_neg hx.symm]
    exact ih fun c hc => h c (List.mem_cons_of_mem _ hc)

theorem readByte_of_unlisted {s : State} {a : Nat} (h : ∀ c ∈ s.mem, c.1 ≠ a) :
    s.readByte a = Config.bufReset s.resets a := by
  rw [State.readByte, Memory.lookup_of_unlisted h, Option.getD_none]

end Sys2Proof.Machine

namespace Sys2Proof.Proofs

open Sys2Proof.Machine

/-- Settles O20. -/
theorem bufferReadReturnsTheLatestWrite : Obligations.BufferReadReturnsTheLatestWrite := by
  intro a x b c s ha hx
  obtain ⟨u, hu, hsame⟩ := exec_wb_readByte_ne hx c (s.writeByte a.toNat b)
  refine ⟨_, u, _, exec_wb_of_le ha b s, hu, exec_rb_of_le ha u, ?_⟩
  rw [State.setReply_reply, hsame, State.readByte_writeByte, if_pos rfl]

/-- Settles O21. -/
theorem unwrittenBytesReadAsTheFreeValue : Obligations.UnwrittenBytesReadAsTheFreeValue := by
  intro a s ha hfree
  rw [exec_rb_of_le ha, readByte_of_unlisted hfree, State.setReply]

end Sys2Proof.Proofs

/-! # Proofs about the encodings, the packed fields and the next host action (30_encoding.md) -/

/-! ## Decoding and encoding undo each other (R80, R87) -/

namespace Sys2Proof

/-! ### The operation word (R80) -/

@[simp] theorem decodeOpWord_encodeOpWord (o : Operation) : decodeOpWord (encodeOpWord o) = .ok o := by
  cases o <;> rfl

theorem eq_encodeOpWord_of_decodeOpWord {w : HostWord} {o : Operation} (h : decodeOpWord w = .ok o) :
    w = encodeOpWord o := by
  unfold decodeOpWord at h
  split_ifs at h with h1 h2 h3 h4 <;> cases h
  exacts [h1, h2, h3, h4]

@[simp] theorem encode_toInstr (o : Operation) : encode o.toInstr = .opWord (encodeOpWord o) := by
  cases o <;> rfl

theorem decode_opWord_encodeOpWord (o : Operation) : decode (.opWord (encodeOpWord o)) = .ok o.toInstr := by
  simp [decode, Except.map]

/-- A word that decodes is the word of an operation. -/
theorem exists_operation_of_decode_opWord {w : HostWord} {i : Instr} (h : decode (.opWord w) = .ok i) :
    ∃ o, w = encodeOpWord o ∧ i = o.toInstr := by
  rw [decode] at h
  cases hw : decodeOpWord w with
  | error why => rw [hw] at h; cases h
  | ok o => rw [hw] at h; cases h; exact ⟨o, eq_encodeOpWord_of_decodeOpWord hw, rfl⟩

/-! ### The host action record (R87) -/

theorem decodeAction_actionWord (k : ActionKind) (a : BitVec 12) (d : HostWord) :
    decodeAction (actionWord k a d) = decodeRecord ⟨k.code, a, d⟩ := by
  rw [decodeAction, actionWord, ActionRecord.ofWord_toWord]

/-- A number in the range of a narrower field is its low bits, zero-extended. -/
theorem setWidth_setWidth_of_lt {n m : Nat} {x : BitVec n} (h : x.toNat < 2 ^ m) :
    (x.setWidth m).setWidth n = x := by
  apply BitVec.eq_of_toNat_eq
  rw [BitVec.toNat_setWidth, BitVec.toNat_setWidth, Nat.mod_eq_of_lt h, Nat.mod_eq_of_lt x.isLt]

theorem decodeAction_rd (r : BitVec 8) : decodeAction (actionWord .rd (r.setWidth 12) 0#32) = .ok (.rd r) := by
  have hr := r.isLt
  rw [decodeAction_actionWord, decodeRecord_rd, if_neg (by simp; omega), if_neg (by simp)]
  simp

theorem decodeAction_wr (r : BitVec 8) (v : HostWord) :
    decodeAction (actionWord .wr (r.setWidth 12) v) = .ok (.wr r v) := by
  have hr := r.isLt
  rw [decodeAction_actionWord, decodeRecord_wr, if_neg (by simp; omega)]
  simp

theorem decodeAction_rb (a : BitVec 12) : decodeAction (actionWord .rb a 0#32) = .ok (.rb a) := by
  rw [decodeAction_actionWord, decodeRecord_rb, if_neg (by simp)]

theorem decodeAction_wb (a : BitVec 12) (b : Byte) :
    decodeAction (actionWord .wb a (b.setWidth 32)) = .ok (.wb a b) := by
  have hb := b.isLt
  rw [decodeAction_actionWord, decodeRecord_wb, if_neg (by simp; omega)]
  simp

/-- A record that decodes is the record its instruction is written as. -/
theorem encode_of_decodeRecord {t : ActionRecord} {i : Instr} (h : decodeRecord t = .ok i) :
    encode i = .action t.toWord := by
  obtain ⟨k, ht⟩ | hk := t.kind_cases
  · rw [ht] at h ⊢
    cases k with
    | rd =>
      rw [decodeRecord_rd] at h
      split_ifs at h with ha hd
      cases h
      rw [encode, setWidth_setWidth_of_lt (by omega), actionWord, not_not.1 hd]
    | wr =>
      rw [decodeRecord_wr] at h
      split_ifs at h with ha
      cases h
      rw [encode, setWidth_setWidth_of_lt (by omega), actionWord]
    | rb =>
      rw [decodeRecord_rb] at h
      split_ifs at h with hd
      cases h
      rw [encode, actionWord, not_not.1 hd]
    | wb =>
      rw [decodeRecord_wb] at h
      split_ifs at h with hd
      cases h
      rw [encode, setWidth_setWidth_of_lt (by omega), actionWord]
  · rw [decodeRecord_unknown hk] at h
    cases h

end Sys2Proof

namespace Sys2Proof.Proofs

/-- Settles O1: the four operations by their words, the four host actions by their records. -/
theorem decodeInvertsEncode : Obligations.DecodeInvertsEncode := by
  intro i
  cases i with
  | csum => exact decode_opWord_encodeOpWord .csum
  | verify => exact decode_opWord_encodeOpWord .verify
  | encode => exact decode_opWord_encodeOpWord .encode
  | decode => exact decode_opWord_encodeOpWord .decode
  | rd r => exact decodeAction_rd r
  | wr r v => exact decodeAction_wr r v
  | rb a => exact decodeAction_rb a
  | wb a b => exact decodeAction_wb a b

/-- Settles O2: a word is that of its operation, a record that of its host action. -/
theorem encodeInvertsDecode : Obligations.EncodeInvertsDecode := by
  intro e i h
  cases e with
  | opWord w =>
    obtain ⟨o, rfl, rfl⟩ := exists_operation_of_decode_opWord h
    exact encode_toInstr o
  | action w => rw [encode_of_decodeRecord (t := .ofWord w) h, ActionRecord.toWord_ofWord]

end Sys2Proof.Proofs

/-! ## The ranges and the places of the fields (R80, R87) -/

namespace Sys2Proof

/-- R87's ranges, as one condition on the fields. -/
theorem ActionRecord.wellFormed_iff (t : ActionRecord) : t.wellFormed = true ↔
    t.k.toNat ≤ 3 ∧ (t.k.toNat ≤ 1 → t.a.toNat ≤ 255) ∧ (t.k.toNat = 0 ∨ t.k.toNat = 2 → t.d.toNat = 0)
      ∧ (t.k.toNat = 3 → t.d.toNat ≤ 255) := by
  simp only [ActionRecord.wellFormed, ActionRecord.kindKnown, ActionRecord.registerInRange,
    ActionRecord.readDataZero, ActionRecord.writeDataByte, Bool.and_eq_true, decide_eq_true_eq, and_assoc]

/-- A check that can refuse lets an instruction through when it is passed. -/
theorem exists_ite_error_eq_ok_iff {p : Prop} [Decidable p] {e : DecodeError} {x : Except DecodeError Instr} :
    (∃ i, (if p then .error e else x) = .ok i) ↔ ¬p ∧ ∃ i, x = .ok i := by
  by_cases hp : p <;> simp [hp]

/-- The records that decode are those of R87. -/
theorem exists_decodeRecord_eq_ok_iff (t : ActionRecord) :
    (∃ i, decodeRecord t = .ok i) ↔ t.wellFormed = true := by
  rw [ActionRecord.wellFormed_iff]
  obtain ⟨k, ht⟩ | hk := t.kind_cases
  · rw [ht]
    cases k with
    | rd =>
      rw [decodeRecord_rd, exists_ite_error_eq_ok_iff, exists_ite_error_eq_ok_iff]
      simp [ActionKind.code, BitVec.toNat_eq]
    | wr =>
      rw [decodeRecord_wr, exists_ite_error_eq_ok_iff]
      simp [ActionKind.code]
    | rb =>
      rw [decodeRecord_rb, exists_ite_error_eq_ok_iff]
      simp [ActionKind.code, BitVec.toNat_eq]
    | wb =>
      rw [decodeRecord_wb, exists_ite_error_eq_ok_iff]
      simp [ActionKind.code]
  · simp [decodeRecord_unknown hk, Nat.not_le.2 hk]

/-- R87: the number of a record of a known kind. -/
theorem actionWord_eq_ofNat (k : ActionKind) (a : BitVec 12) (d : HostWord) :
    actionWord k a d = BitVec.ofNat 48 (k.code.toNat * 2 ^ 44 + a.toNat * 2 ^ 32 + d.toNat) := by
  rw [← ActionRecord.toWord_toNat ⟨k.code, a, d⟩, BitVec.ofNat_toNat, BitVec.setWidth_eq, actionWord]

end Sys2Proof

namespace Sys2Proof.Proofs

open Sys2Proof.Machine

/-- Settles O3: the ranges of `ActionRecord.wellFormed`, with the fields as numbers. -/
theorem actionRecordsAcceptedAreThoseOfTheSpec : Obligations.ActionRecordsAcceptedAreThoseOfTheSpec := by
  intro w
  rw [decodeAction, exists_decodeRecord_eq_ok_iff, ActionRecord.wellFormed_iff, ActionRecord.ofWord_k,
    ActionRecord.ofWord_a, ActionRecord.ofWord_d]

/-- Settles O4: each number is the word of its record, and that word decodes. -/
theorem actionRecordFieldsAreReadWhereTheyStand : Obligations.ActionRecordFieldsAreReadWhereTheyStand := by
  refine ⟨fun r => ?_, fun r v => ?_, fun a => ?_, fun a b => ?_⟩
  · rw [← decodeAction_rd r, actionWord_eq_ofNat, BitVec.toNat_setWidth_of_le (by decide : 8 ≤ 12)]
    simp [ActionKind.code]
  · rw [← decodeAction_wr r v, actionWord_eq_ofNat, BitVec.toNat_setWidth_of_le (by decide : 8 ≤ 12)]
    simp [ActionKind.code]
  · rw [← decodeAction_rb a, actionWord_eq_ofNat]
    simp [ActionKind.code]
  · rw [← decodeAction_wb a b, actionWord_eq_ofNat, BitVec.toNat_setWidth_of_le (by decide : 8 ≤ 32)]
    simp [ActionKind.code]

/-- Settles O5: the decoder's comparisons of words are those of their numbers. -/
theorem operationWordsAreOneToFour : Obligations.OperationWordsAreOneToFour := by
  intro w
  simp only [decodeOpWord, ← BitVec.toNat_inj]
  rfl

/-- Settles O6: the decoder evaluated. -/
theorem wordsWrittenFromTheSpecDecode : Obligations.WordsWrittenFromTheSpecDecode :=
  ⟨rfl, rfl, rfl, rfl, rfl, rfl, rfl, rfl, rfl⟩

/-- Settles O7: everything on numbers. -/
theorem packedFieldsComeApart : Obligations.PackedFieldsComeApart := by
  refine ⟨fun h l => ⟨pack62_toNat h l, ?_, ?_⟩, fun b => ⟨hi6_toNat b, lo2_toNat b, ?_⟩⟩ <;>
    apply BitVec.eq_of_toNat_eq
  · have hl := l.isLt
    rw [hi6_toNat, pack62_toNat]
    omega
  · have hl := l.isLt
    rw [lo2_toNat, pack62_toNat]
    omega
  · rw [pack62_toNat, hi6_toNat, lo2_toNat]
    omega

/-- Settles O11: the rule `step_of_action`. -/
theorem stepRunsTheNextHostAction : Obligations.StepRunsTheNextHostAction :=
  fun _ _ _ _ hs hd => step_of_action hs hd

/-- Settles O16: a reserved word is none of the four of `dispatchOp_cases`. -/
theorem reservedOperationWordsReportBadOp : Obligations.ReservedOperationWordsReportBadOp := by
  intro w s hw
  rcases dispatchOp_cases w s with ⟨rfl, _⟩ | ⟨rfl, _⟩ | ⟨rfl, _⟩ | ⟨rfl, _⟩ | ⟨_, _, _, _, hbad⟩
  · simp at hw
  · simp at hw
  · simp at hw
  · simp at hw
  · exact hbad

end Sys2Proof.Proofs

/-! # Proofs about the checksummer (40_checksum.md) -/

/-! ## The laws of the checksum (R102) -/

namespace Sys2Proof.Machine

/-! ### The sum of a byte sequence -/

/-- Adding the bytes in 8 bits is adding them as numbers, modulo 256. -/
theorem toNat_foldl_add (bs : List Byte) (a : Byte) :
    (bs.foldl (· + ·) a).toNat = (a.toNat + byteSum bs) % 256 := by
  induction bs generalizing a with
  | nil => exact (Nat.mod_eq_of_lt a.isLt).symm
  | cons b bs ih =>
    rw [List.foldl_cons, ih, BitVec.toNat_add, byteSum_cons]
    omega

theorem byteSum_perm {bs cs : List Byte} (h : List.Perm bs cs) : byteSum bs = byteSum cs :=
  (h.map BitVec.toNat).sum_eq

theorem byteSum_replicate_zero (n : Nat) : byteSum (List.replicate n 0) = 0 := by
  simp [byteSum]

/-- Replacing a byte exchanges its value in the sum. -/
theorem byteSum_set_add {bs : List Byte} {i : Nat} (h : i < bs.length) (b : Byte) :
    byteSum (bs.set i b) + bs[i].toNat = byteSum bs + b.toNat := by
  induction bs generalizing i with
  | nil => simp at h
  | cons x bs ih =>
    cases i with
    | zero =>
      simp
      omega
    | succ i =>
      have hrest := ih (Nat.lt_of_succ_lt_succ h)
      simp only [List.set_cons_succ, List.getElem_cons_succ, byteSum_cons]
      omega

/-! ### The checksum is the negated sum -/

/-- In 8 bits the checksum is the sum's two's complement; the laws about sums of checksums follow from this. -/
theorem csum8_eq_neg (bs : List Byte) : csum8 bs = -BitVec.ofNat 8 (byteSum bs) := by
  apply BitVec.eq_of_toNat_eq
  rw [csum8_toNat, BitVec.toNat_neg, BitVec.toNat_ofNat]

theorem csum8_append (bs cs : List Byte) : csum8 (bs ++ cs) = csum8 bs + csum8 cs := by
  rw [csum8_eq_neg, csum8_eq_neg, csum8_eq_neg, byteSum_append, BitVec.ofNat_add, BitVec.neg_add, BitVec.sub_eq_add_neg]

theorem csum8_singleton_toNat (c : Byte) : (csum8 [c]).toNat = (256 - c.toNat) % 256 := by
  have hc := c.isLt
  rw [csum8_toNat, byteSum_cons, byteSum_nil]
  omega

theorem csum8_replicate_zero (n : Nat) : csum8 (List.replicate n 0) = 0 := by
  rw [csum8, byteSum_replicate_zero]
  rfl

/-! ### A sequence verifies with exactly one checksum byte -/

theorem byteSum_add_csum8 (bs : List Byte) : (byteSum bs + (csum8 bs).toNat) % 256 = 0 := by
  rw [csum8_toNat]
  omega

theorem vsum8_iff_eq_csum8 (bs : List Byte) (c : Byte) : vsum8 bs c = true ↔ c = csum8 bs := by
  have hc := c.isLt
  rw [vsum8_iff, ← BitVec.toNat_inj, csum8_toNat]
  omega

theorem vsum8_csum8 (bs : List Byte) : vsum8 bs (csum8 bs) = true := (vsum8_iff_eq_csum8 bs _).2 rfl

/-- A checksum byte may as well stand at the end of the sequence. -/
theorem vsum8_append_singleton_zero (bs : List Byte) (c : Byte) : vsum8 (bs ++ [c]) 0 = vsum8 bs c := by
  simp [vsum8]

/-- Two sequences with one checksum have the same sum modulo 256. -/
theorem byteSum_mod_eq_of_csum8_eq {bs cs : List Byte} (h : csum8 bs = csum8 cs) :
    byteSum bs % 256 = byteSum cs % 256 := by
  have hnum := congrArg BitVec.toNat h
  rw [csum8_toNat, csum8_toNat] at hnum
  omega

/-- Replacing one byte by another one changes the checksum: two bytes differ by less than 256. -/
theorem csum8_set_ne {bs : List Byte} {i : Nat} (h : i < bs.length) {b : Byte} (hb : b ≠ bs[i]) :
    csum8 (bs.set i b) ≠ csum8 bs := by
  intro heq
  have hmod := byteSum_mod_eq_of_csum8_eq heq
  have hset := byteSum_set_add h b
  have hnew := b.isLt
  have hold := bs[i].isLt
  exact hb (BitVec.eq_of_toNat_eq (by omega))

end Sys2Proof.Machine

namespace Sys2Proof.Proofs

open Sys2Proof.Machine

/-- Settles O24, law by law. -/
theorem checksumLaws : Obligations.ChecksumLaws := by
  intro bs cs c
  refine ⟨⟨?_, fun hperm => ?_⟩, ?_, byteSum_add_csum8 bs, vsum8_iff_eq_csum8 bs c, ⟨?_, ?_⟩, ?_,
    csum8_singleton_toNat c, csum8_replicate_zero⟩
  · simp [toNat_foldl_add]
  · rw [csum8, csum8, byteSum_perm hperm]
  · exact (csum8_eq_neg bs).trans (BitVec.neg_eq_not_add _)
  · exact (vsum8_append_singleton_zero bs c).symm
  · rw [vsum8_iff, byteSum_append, byteSum_cons, byteSum_nil, Nat.add_zero]
  · rw [csum8_append, BitVec.toNat_add]

/-- Settles O25: the one checksum byte of the changed sequence is another one, and that of the same sequence is not. -/
theorem oneChangedByteBreaksTheChecksum : Obligations.OneChangedByteBreaksTheChecksum := by
  intro bs c hv
  obtain rfl := (vsum8_iff_eq_csum8 bs c).1 hv
  refine ⟨fun i hi b hb => ?_, fun c' hc => ?_⟩ <;> rw [Bool.eq_false_iff, Ne, vsum8_iff_eq_csum8]
  · exact (csum8_set_ne hi hb).symm
  · exact hc

end Sys2Proof.Proofs

/-! ## CSUM and VERIFY (R103 to R107) -/

namespace Sys2Proof.Machine

/-! ### The range check, case by case -/

theorem csRangeError_of_empty {s : State} (h : s.csLen.toNat = 0) : s.csRangeError = some .emptyRange := if_pos h

theorem csRangeError_of_oob {s : State} (h : s.csLen.toNat ≠ 0) (hend : s.csBase.toNat + s.csLen.toNat > 1024) :
    s.csRangeError = some .rangeOob := (if_neg h).trans (if_pos hend)

theorem csRangeError_of_inside {s : State} (h : s.csLen.toNat ≠ 0) (hend : s.csBase.toNat + s.csLen.toNat ≤ 1024) :
    s.csRangeError = none := (if_neg h).trans (if_neg (Nat.not_lt.2 hend))

theorem byteSum_csRange (s : State) : byteSum s.csRange =
    ((List.range s.csLen.toNat).map fun i => (s.readByte (s.csBase.toNat + i)).toNat).sum :=
  byteSum_readBytes s _ _

/-! ### STATUS after the two operations -/

/-- STATUS after a VERIFY that passes its checks: VOK alone (R106). -/
theorem statusWord_vsum8 (bs : List Byte) (c : Byte) : statusWord .ok .noError (vsum8 bs c) false =
    if (byteSum bs + c.toNat) % 256 = 0 then 0x100 else 0x000 := by
  rw [vsum8]
  split_ifs with h
  · rw [decide_eq_true h]; rfl
  · rw [decide_eq_false h]; rfl

theorem statusWord_invalidParameter_ne_zero (d : Detail) (v w : Bool) : statusWord .invalidParameter d v w ≠ 0 := by
  intro h
  have herr := congrArg statusErr h
  rw [statusErr_statusWord] at herr
  exact absurd herr (by decide)

/-! ### What the two operations read -/

theorem readBytes_congr {s t : State} {a n : Nat} (h : ∀ i < n, s.readByte (a + i) = t.readByte (a + i)) :
    s.readBytes a n = t.readBytes a n :=
  List.map_congr_left fun i hi => h i (List.mem_range.1 hi)

theorem csRangeError_congr {s t : State} (hbase : s.csBase = t.csBase) (hlen : s.csLen = t.csLen) :
    s.csRangeError = t.csRangeError := by
  rw [State.csRangeError, State.csRangeError, hbase, hlen]

theorem csRange_congr {s t : State} (hbase : s.csBase = t.csBase) (hlen : s.csLen = t.csLen)
    (hbytes : ∀ i < s.csLen.toNat, s.readByte (s.csBase.toNat + i) = t.readByte (s.csBase.toNat + i)) :
    s.csRange = t.csRange := by
  rw [State.csRange, readBytes_congr hbytes, State.csRange, hbase, hlen]

theorem execCsum_result_congr {s t s' t' : State} (herr : s.csRangeError = t.csRangeError)
    (hrange : s.csRange = t.csRange) (hs : execCsum s = .next s') (ht : execCsum t = .next t') :
    s'.status = t'.status ∧ (s'.status = 0 → s'.csOut = t'.csOut) := by
  cases hd : t.csRangeError with
  | some d =>
    rw [execCsum_of_error (herr.trans hd)] at hs
    rw [execCsum_of_error hd] at ht
    cases hs
    cases ht
    exact ⟨rfl, fun h => absurd h (statusWord_invalidParameter_ne_zero d false false)⟩
  | none =>
    rw [execCsum_of_ok (herr.trans hd), hrange] at hs
    rw [execCsum_of_ok hd] at ht
    cases hs
    cases ht
    exact ⟨rfl, fun _ => rfl⟩

theorem execVerify_status_congr {s t s' t' : State} (herr : s.csRangeError = t.csRangeError)
    (hrange : s.csRange = t.csRange) (hin : s.csIn = t.csIn) (hs : execVerify s = .next s')
    (ht : execVerify t = .next t') : s'.status = t'.status := by
  cases hd : t.csRangeError with
  | some d =>
    rw [execVerify_of_error (herr.trans hd)] at hs
    rw [execVerify_of_error hd] at ht
    cases hs
    cases ht
    rfl
  | none =>
    rw [execVerify_of_ok (herr.trans hd), hrange, hin] at hs
    rw [execVerify_of_ok hd] at ht
    cases hs
    cases ht
    rfl

/-! ### The script of R107 -/

/-- R171: a write to CS_IN stores the word's low byte. -/
theorem exec_wr_csIn (v : HostWord) (s : State) : exec (.wr 0x06 v) s = .next (s.writeReg .csIn v) := rfl

/-- A byte read from CS_OUT and written to CS_IN arrives there whole. -/
theorem writeReg_csIn_readReg_csOut (s t : State) : (t.writeReg .csIn (s.readReg .csOut)).csIn = s.csOut := by
  simp [State.writeReg, State.readReg]

theorem execVerify_of_csum8 {s : State} (hcheck : s.csRangeError = none) (hin : s.csIn = csum8 s.csRange) :
    execVerify s = .next (s.setStatus 0x100#10) := by
  rw [execVerify_of_ok hcheck, hin, vsum8_csum8]
  rfl

end Sys2Proof.Machine

namespace Sys2Proof.Proofs

open Sys2Proof.Machine

/-- Settles O22: the range check's three answers. -/
theorem csumWritesTheChecksumOfTheRange : Obligations.CsumWritesTheChecksumOfTheRange := by
  intro s
  refine ⟨fun h => execCsum_of_error (csRangeError_of_empty h),
    fun h hend => execCsum_of_error (csRangeError_of_oob h hend), fun h hend => ?_⟩
  rw [← byteSum_csRange]
  exact execCsum_of_ok (csRangeError_of_inside h hend)

/-- Settles O23: the range check's three answers. -/
theorem verifyReportsTheSumInVok : Obligations.VerifyReportsTheSumInVok := by
  intro s
  refine ⟨fun h => execVerify_of_error (csRangeError_of_empty h),
    fun h hend => execVerify_of_error (csRangeError_of_oob h hend), fun h hend => ?_⟩
  rw [← byteSum_csRange, ← statusWord_vsum8]
  exact execVerify_of_ok (csRangeError_of_inside h hend)

/-- Settles O26: nothing between CSUM and VERIFY changes the range, and CS_IN then holds its checksum. -/
theorem csumThenVerifySucceeds : Obligations.CsumThenVerifySucceeds := by
  intro s hlen hend
  have hcheck := csRangeError_of_inside (Nat.one_le_iff_ne_zero.1 hlen) hend
  exact ⟨_, _, _, _, _, _, (exec_wr_op_encodeOpWord .csum s).trans (execCsum_of_ok hcheck),
    exec_rd_of_some (reg := .csOut) rfl _, State.setReply_reply .., exec_wr_csIn _ _,
    (exec_wr_op_encodeOpWord .verify _).trans (execVerify_of_csum8 hcheck (writeReg_csIn_readReg_csOut _ _)),
    exec_rd_of_some (reg := .status) rfl _, State.setReply_reply ..⟩

/-- Settles O27: the check's answer, the range and CS_IN are all that the two operations read. -/
theorem checksumOperationsReadOnlyTheirRange : Obligations.ChecksumOperationsReadOnlyTheirRange := by
  intro s t s' t' hbase hlen hbytes
  have herr := csRangeError_congr hbase hlen
  have hrange := csRange_congr hbase hlen hbytes
  exact ⟨execCsum_result_congr herr hrange, execVerify_status_congr herr hrange⟩

end Sys2Proof.Proofs

/-! # Proofs about ENCODE (41_encode.md) -/

/-! ## What ENCODE depends on (R120, R123) -/

namespace Sys2Proof.Machine

theorem encodeError_congr {s t : State} (hnetfn : s.txNetfn = t.txNetfn) (hplen : s.txPlen = t.txPlen)
    (hcap : s.fcap = t.fcap) : s.encodeError = t.encodeError := by
  rw [State.encodeError, State.encodeError, hnetfn, hplen, hcap]

theorem txFrame_congr {s t : State} (hnetfn : s.txNetfn = t.txNetfn) (hcmd : s.txCmd = t.txCmd)
    (hseq : s.txSeq = t.txSeq) (hplen : s.txPlen = t.txPlen)
    (hbytes : ∀ i < s.txPlen.toNat, s.readByte (0x200 + i) = t.readByte (0x200 + i)) : s.txFrame = t.txFrame := by
  rw [State.txFrame, txpBase, readBytes_congr hbytes, hnetfn, hcmd, hseq, hplen, State.txFrame, txpBase]

theorem execEncode_status_congr {s t s' t' : State} (herr : s.encodeError = t.encodeError)
    (hs : execEncode s = .next s') (ht : execEncode t = .next t') : s'.status = t'.status := by
  cases he : t.encodeError with
  | some kd =>
    rw [execEncode_of_error (herr.trans he)] at hs
    rw [execEncode_of_error he] at ht
    cases hs
    cases ht
    rfl
  | none =>
    rw [execEncode_of_ok (herr.trans he)] at hs
    rw [execEncode_of_ok he] at ht
    cases hs
    cases ht
    rfl

/-- STATUS tells whether ENCODE wrote its frame: no failing check leaves it 0. -/
theorem eq_encoded_of_status_eq_zero {s t : State} (h : execEncode s = .next t) (h0 : t.status = 0) :
    t = s.encoded := by
  have hfail : (0 : BitVec 10) ∉ [0x021#10, 0x029#10, 0x031#10, 0x03A#10] := by decide
  rcases execEncode_inv h with ⟨st, hst, rfl⟩ | ⟨_, _, _, rfl⟩
  · rw [State.setStatus_status] at h0
    exact absurd (h0 ▸ hst) hfail
  · rfl

end Sys2Proof.Machine

namespace Sys2Proof.Proofs

open Sys2Proof.Machine

/-- Settles O28, along the chain of checks of R123. -/
theorem encodeReportsTheFirstFailingCheck : Obligations.EncodeReportsTheFirstFailingCheck := by
  intro s
  split_ifs with hnetfn hplen hwire hcap
  · exact execEncode_of_error (if_pos hnetfn)
  · exact execEncode_of_error ((if_neg hnetfn).trans (if_pos hplen))
  · exact execEncode_of_error ((if_neg hnetfn).trans ((if_neg hplen).trans (if_pos hwire)))
  · exact execEncode_of_error
      ((if_neg hnetfn).trans ((if_neg hplen).trans ((if_neg hwire).trans (if_pos hcap))))
  · have hpass := (encodeError_eq_none s).2 ⟨Nat.not_lt.1 hnetfn, Nat.not_lt.1 hwire, Nat.not_lt.1 hcap⟩
    exact ⟨_, execEncode_of_ok hpass, rfl⟩

/-- Settles O30: the checks' answer and the frame are made from the message and FCAP alone. -/
theorem encodeReadsOnlyTheMessage : Obligations.EncodeReadsOnlyTheMessage := by
  intro s t s' t' hnetfn hcmd hseq hplen hcap hbytes hs ht
  have hstatus := execEncode_status_congr (encodeError_congr hnetfn hplen hcap) hs ht
  refine ⟨hstatus, fun h0 => ?_⟩
  obtain rfl := eq_encoded_of_status_eq_zero hs h0
  obtain rfl := eq_encoded_of_status_eq_zero ht (hstatus ▸ h0)
  refine ⟨?_, fun a ha => ?_⟩
  · rw [State.setStatus_flen, State.setFlen_flen, hplen, State.setStatus_flen, State.setFlen_flen]
  · rw [encoded_readByte, if_pos ha, txFrame_congr hnetfn hcmd hseq hplen hbytes, encoded_readByte, ← hplen,
      if_pos ha]

end Sys2Proof.Proofs

/-! ## The bytes of the frame (R60, R125 to R130) -/

namespace Sys2Proof.Machine

/-! ### The frame in two parts, the second under the data checksum -/

/-- The 17 bytes of the frame before the data: the fixed header, the length byte, the target bytes and their
checksum. -/
def State.txHead (s : State) : List Byte :=
  fixedHeader ++ [BitVec.ofNat 8 (bodyOverhead + s.txPlen.toNat)] ++ targetBytes (s.txNetfn.setWidth 6)
    ++ [csum8 (targetBytes (s.txNetfn.setWidth 6))]

/-- The bytes of the frame under the data checksum. -/
def State.txData (s : State) : List Byte :=
  dataBytes (s.txSeq.setWidth 6) s.txCmd (s.readBytes txpBase s.txPlen.toNat)

theorem txHead_length (s : State) : s.txHead.length = 17 := rfl

theorem txData_length (s : State) : s.txData.length = 3 + s.txPlen.toNat := by
  simp [State.txData, dataBytes]
  omega

theorem txFrame_eq (s : State) : s.txFrame = s.txHead ++ (s.txData ++ [csum8 s.txData]) := by
  simp only [State.txFrame, buildFrame, State.txHead, State.txData, State.readBytes_length, List.append_assoc]

theorem txData_getD_payload (s : State) {i : Nat} (hi : i < s.txPlen.toNat) :
    s.txData.getD (3 + i) 0 = s.readByte (0x200 + i) := by
  rw [State.txData, dataBytes, List.getD_append_right _ _ _ _ (Nat.le_add_right 3 i)]
  exact (congrArg (List.getD _ · 0) (Nat.add_sub_cancel_left 3 i)).trans (State.readBytes_getD s txpBase hi)

/-- Bytes read in a row are the list that holds each of them at its place. -/
theorem readBytes_eq_of_getD {s : State} {a : Nat} {bs : List Byte}
    (h : ∀ i < bs.length, s.readByte (a + i) = bs.getD i 0) : s.readBytes a bs.length = bs := by
  apply List.ext_getElem (State.readBytes_length ..)
  intro i _ hi
  rw [← List.getD_eq_getElem _ 0 hi, ← h i hi]
  simp [State.readBytes]

/-! ### The state after an ENCODE that succeeds -/

theorem encoded_mem (s : State) : s.encoded.mem = Memory.writeList s.mem fbBase s.txFrame := by
  rw [State.setStatus_mem, State.setFlen_mem, State.writeBytes_mem]

/-- R130: beside the buffer space ENCODE writes FLEN and STATUS only. (The updates are unfolded before `rfl`, which
would otherwise evaluate the frame.) -/
theorem encoded_eq (s : State) :
    s.encoded = { s with mem := s.encoded.mem, flen := BitVec.ofNat 16 (21 + s.txPlen.toNat), status := 0x000 } := by
  simp only [State.encoded, State.setStatus, State.setFlen, State.writeBytes, frameOverhead]
  rfl

theorem encoded_readByte_head (s : State) {i : Nat} (hi : i < 17) : s.encoded.readByte i = s.txHead.getD i 0 := by
  rw [encoded_readByte, if_pos (by omega), txFrame_eq, List.getD_append _ _ _ _ (by rwa [txHead_length])]

/-- The bytes behind the head are those of the data and its checksum. -/
theorem encoded_readByte_tail (s : State) {i : Nat} (hi : i < 4 + s.txPlen.toNat) :
    s.encoded.readByte (17 + i) = (s.txData ++ [csum8 s.txData]).getD i 0 := by
  rw [encoded_readByte, if_pos (by omega), txFrame_eq, List.getD_append_right _ _ _ _ (Nat.le_add_right 17 i),
    txHead_length, Nat.add_sub_cancel_left]

theorem encoded_readByte_data (s : State) {i : Nat} (hi : i < s.txData.length) :
    s.encoded.readByte (17 + i) = s.txData.getD i 0 := by
  rw [encoded_readByte_tail s (by rw [txData_length] at hi; omega), List.getD_append _ _ _ _ hi]

/-- R127: the data starts with the source address, the sequence value with LUN 0, and the command. -/
theorem encoded_readByte_source (s : State) : s.encoded.readByte 17 = 0x81
    ∧ s.encoded.readByte 18 = pack62 (s.txSeq.setWidth 6) 0 ∧ s.encoded.readByte 19 = s.txCmd := by
  have hlen := txData_length s
  exact ⟨encoded_readByte_data s (i := 0) (by omega), encoded_readByte_data s (i := 1) (by omega),
    encoded_readByte_data s (i := 2) (by omega)⟩

/-- R128: the payload is copied from TXP, byte by byte. -/
theorem encoded_readByte_payload (s : State) {i : Nat} (hi : i < s.txPlen.toNat) :
    s.encoded.readByte (20 + i) = s.readByte (0x200 + i) := by
  have hdata := encoded_readByte_data s (i := 3 + i) (by rw [txData_length]; omega)
  rw [← Nat.add_assoc, txData_getD_payload s hi] at hdata
  exact hdata

/-- R129: the frame ends with the data checksum. -/
theorem encoded_readByte_dataCsum (s : State) : s.encoded.readByte (20 + s.txPlen.toNat) = csum8 s.txData := by
  have htail := encoded_readByte_tail s (i := 3 + s.txPlen.toNat) (by omega)
  rw [← Nat.add_assoc, List.getD_append_right _ _ _ _ (txData_length s).le, txData_length, Nat.sub_self] at htail
  exact htail

theorem encoded_readBytes_data (s : State) : s.encoded.readBytes 17 (3 + s.txPlen.toNat) = s.txData := by
  rw [← txData_length]
  exact readBytes_eq_of_getD fun i hi => encoded_readByte_data s hi

theorem encoded_readByte_behind (s : State) {a : Nat} (ha : 21 + s.txPlen.toNat ≤ a) :
    s.encoded.readByte a = s.readByte a := by
  rw [encoded_readByte, if_neg (Nat.not_lt.2 ha)]

/-! ### Field by field -/

/-- R125: the RMCP header. -/
theorem encoded_readByte_rmcp (s : State) : s.encoded.readByte 0 = 0x06 ∧ s.encoded.readByte 1 = 0x00
    ∧ s.encoded.readByte 2 = 0xFF ∧ s.encoded.readByte 3 = 0x07 :=
  ⟨encoded_readByte_head s (by omega), encoded_readByte_head s (by omega), encoded_readByte_head s (by omega),
    encoded_readByte_head s (by omega)⟩

/-- R125: the authentication type and the session header are zero. -/
theorem encoded_readByte_session (s : State) {i : Nat} (hlo : 4 ≤ i) (hhi : i ≤ 12) : s.encoded.readByte i = 0x00 := by
  rw [encoded_readByte_head s (by omega)]
  interval_cases i <;> rfl

/-- R126: the length byte holds the length of the message body, which passed ENCODE's checks and fits a byte. -/
theorem encoded_readByte_bodyLen {s : State} (hn : s.txPlen.toNat ≤ 248) :
    (s.encoded.readByte 13).toNat = 7 + s.txPlen.toNat := by
  have hbyte : s.encoded.readByte 13 = BitVec.ofNat 8 (7 + s.txPlen.toNat) := encoded_readByte_head s (by omega)
  rw [hbyte, BitVec.toNat_ofNat]
  omega

/-- A value packed with LUN 0 is four times its low six bits (R70). -/
theorem pack62_setWidth_zero_toNat {w : Nat} (v : BitVec w) :
    (pack62 (v.setWidth 6) 0).toNat = 4 * (v.toNat % 64) := by
  rw [pack62_toNat, BitVec.toNat_setWidth]
  rfl

/-- R126: the target address. -/
theorem encoded_readByte_targetAddr (s : State) : s.encoded.readByte 14 = 0x20 := encoded_readByte_head s (by omega)

/-- R126: the target NetFn with LUN 0. -/
theorem encoded_readByte_netfn {s : State} (hnetfn : s.txNetfn.toNat ≤ 63) :
    (s.encoded.readByte 15).toNat = 4 * s.txNetfn.toNat := by
  have hbyte : s.encoded.readByte 15 = pack62 (s.txNetfn.setWidth 6) 0 := encoded_readByte_head s (by omega)
  rw [hbyte, pack62_setWidth_zero_toNat, Nat.mod_eq_of_lt (Nat.lt_succ_of_le hnetfn)]

/-- R126: the header checksum, over the two target bytes as they stand in FB. -/
theorem encoded_readByte_hdrCsum (s : State) :
    (s.encoded.readByte 16).toNat =
      (256 - ((s.encoded.readByte 14).toNat + (s.encoded.readByte 15).toNat) % 256) % 256 := by
  have hcsum : s.encoded.readByte 16 = csum8 [s.encoded.readByte 14, s.encoded.readByte 15] := by
    rw [encoded_readByte_head s (by omega), encoded_readByte_head s (by omega), encoded_readByte_head s (by omega)]
    rfl
  rw [hcsum, csum8_toNat, byteSum_cons, byteSum_cons, byteSum_nil, Nat.add_zero]

/-- R129: the data checksum, over the data bytes as they stand in FB. -/
theorem encoded_readByte_dataCsum_toNat (s : State) :
    (s.encoded.readByte (20 + s.txPlen.toNat)).toNat =
      (256 - ((List.range (3 + s.txPlen.toNat)).map fun i => (s.encoded.readByte (17 + i)).toNat).sum % 256) % 256 := by
  rw [encoded_readByte_dataCsum, csum8_toNat, ← encoded_readBytes_data, byteSum_readBytes]

end Sys2Proof.Machine

namespace Sys2Proof.Proofs

open Sys2Proof.Machine

/-- Settles O29: the checks pass, and `State.encoded` holds the frame field by field. -/
theorem encodeBuildsTheFrame : Obligations.EncodeBuildsTheFrame := by
  intro s hnetfn hn hcap
  obtain ⟨hversion, hreserved, hnoack, hclass⟩ := encoded_readByte_rmcp s
  obtain ⟨hsource, hseq, hcmd⟩ := encoded_readByte_source s
  refine ⟨s.encoded, execEncode_of_ok ((encodeError_eq_none s).2 ⟨hnetfn, hn, hcap⟩), encoded_eq s,
    hversion, hreserved, hnoack, hclass, fun i => encoded_readByte_session s, encoded_readByte_bodyLen hn,
    encoded_readByte_targetAddr s, encoded_readByte_netfn hnetfn, encoded_readByte_hdrCsum s, hsource, ?_, hcmd,
    fun i => encoded_readByte_payload s, encoded_readByte_dataCsum_toNat s, fun a => encoded_readByte_behind s⟩
  rw [hseq, pack62_setWidth_zero_toNat]

end Sys2Proof.Proofs

/-! ## ENCODE a second time (R132, item 8) -/

namespace Sys2Proof.Machine

/-- The frame ends in front of TXP, so ENCODE leaves its own message alone. -/
theorem encoded_txFrame {s : State} (hn : s.txPlen.toNat ≤ 248) : s.encoded.txFrame = s.txFrame :=
  txFrame_congr rfl rfl rfl rfl fun i _ => encoded_readByte_behind s (by omega)

theorem encoded_encoded {s : State} (hn : s.txPlen.toNat ≤ 248) (hwf : Memory.wf s.mem = true) :
    s.encoded.encoded = s.encoded := by
  have hmem : s.encoded.encoded.mem = s.encoded.mem := by
    rw [encoded_mem, encoded_txFrame hn, encoded_mem]
    exact Memory.writeList_writeList hwf (by rw [txFrame_length, fbBase]; omega)
  rw [encoded_eq s.encoded, hmem, encoded_eq s]

end Sys2Proof.Machine

namespace Sys2Proof.Proofs

open Sys2Proof.Machine

/-- Settles O31: a failed ENCODE left STATUS only, which the second one does not read; a successful one left the
message as it was. -/
theorem encodeTwiceIsEncodeOnce : Obligations.EncodeTwiceIsEncodeOnce := by
  intro s t hwf h
  rcases execEncode_inv h with ⟨st, _, rfl⟩ | ⟨hnetfn, hn, hcap, rfl⟩
  · exact (operationsOverwriteAllOfStatus .encode s st (.inr (.inr (.inl rfl)))).trans h
  · have hpass := (encodeError_eq_none s.encoded).2 ⟨hnetfn, hn, hcap⟩
    exact (execEncode_of_ok hpass).trans (congrArg _ (encoded_encoded hn hwf))

end Sys2Proof.Proofs

/-! # Proofs about DECODE (42_decode.md) -/

/-! ## The validation steps, each with what it answers (R141 to R153) -/

namespace Sys2Proof.Machine

/-! ### The steps behind the authentication type, as the statements count their bytes -/

/-- Steps 4 to 9 without the length test that cannot fail (R151). -/
theorem decodeLateError_eq (s : State) : s.decodeLateError =
    if 14 + (s.readByte 13).toNat > s.flen.toNat then some (.protocol, .bodyOverrun)
    else if ((s.readByte 14).toNat + (s.readByte 15).toNat + (s.readByte 16).toNat) % 256 ≠ 0 then
      some (.protocol, .hdrCsum)
    else if (s.readByte 13).toNat < 7 then some (.protocol, .bodyLenSmall)
    else if byteSum (s.readBytes 17 ((s.readByte 13).toNat - 3)) % 256 ≠ 0 then some (.protocol, .dataCsum)
    else none := by
  have hfits : ¬s.rxPayloadLen > payloadCap := Nat.not_lt.2 ((rxPayloadLen_le s).trans (by decide))
  have hlen : 14 + (s.readByte 13).toNat - 17 = (s.readByte 13).toNat - 3 := by omega
  rw [State.decodeLateError, if_neg hfits]
  simp only [State.bodyLen, fb_eq, fbRange_eq, hlen]
  rfl

/-- R146: the STATUS of an outcome from step 3 on carries AUTH_WARN where the authentication type is not zero. -/
theorem statusWord_authWarn (s : State) (k : ErrKind) (d : Detail) : statusWord k d false s.authWarn =
    if s.readByte 4 = 0 then statusWord k d false false else statusWord k d false true := by
  rw [authWarn_eq]
  split_ifs with h
  · rw [decide_eq_false (not_not.2 h)]
  · rw [decide_eq_true h]

/-! ### One rule per step -/

section Steps

variable {s : State}

theorem execDecode_of_rangeOob (h : s.flen.toNat > 512) : execDecode s = .next (s.setStatus 0x019) :=
  execDecode_of_early (if_pos h)

theorem execDecode_of_tooShort (h : s.flen.toNat < 20) : execDecode s = .next (s.setStatus 0x045) :=
  execDecode_of_early ((if_neg (show ¬s.flen.toNat > 512 by omega)).trans (if_pos h))

theorem execDecode_of_badVersion (hlo : 20 ≤ s.flen.toNat) (hhi : s.flen.toNat ≤ 512) (h : s.readByte 0 ≠ 0x06) :
    execDecode s = .next (s.setStatus 0x04D) :=
  execDecode_of_early ((if_neg (Nat.not_lt.2 hhi)).trans ((if_neg (Nat.not_lt.2 hlo)).trans (if_pos h)))

theorem execDecode_of_badClass (hlo : 20 ≤ s.flen.toNat) (hhi : s.flen.toNat ≤ 512) (hversion : s.readByte 0 = 0x06)
    (h : s.readByte 3 ≠ 0x07) : execDecode s = .next (s.setStatus 0x055) :=
  execDecode_of_early ((if_neg (Nat.not_lt.2 hhi)).trans ((if_neg (Nat.not_lt.2 hlo)).trans
    ((if_neg (not_not.2 hversion)).trans (if_pos h))))

variable (hpass : s.decodeEarlyError = none)

include hpass

theorem execDecode_of_bodyOverrun (h : 14 + (s.readByte 13).toNat > s.flen.toNat) :
    execDecode s = .next (s.setStatus (if s.readByte 4 = 0 then 0x05D else 0x25D)) := by
  rw [execDecode_of_late hpass (if_pos h), statusWord_authWarn]
  rfl

theorem execDecode_of_hdrCsum (hbody : ¬14 + (s.readByte 13).toNat > s.flen.toNat)
    (h : ((s.readByte 14).toNat + (s.readByte 15).toNat + (s.readByte 16).toNat) % 256 ≠ 0) :
    execDecode s = .next (s.setStatus (if s.readByte 4 = 0 then 0x065 else 0x265)) := by
  rw [execDecode_of_late hpass ((if_neg hbody).trans (if_pos h)), statusWord_authWarn]
  rfl

theorem execDecode_of_bodyLenSmall (hbody : ¬14 + (s.readByte 13).toNat > s.flen.toNat)
    (hhdr : ((s.readByte 14).toNat + (s.readByte 15).toNat + (s.readByte 16).toNat) % 256 = 0)
    (h : (s.readByte 13).toNat < 7) :
    execDecode s = .next (s.setStatus (if s.readByte 4 = 0 then 0x06D else 0x26D)) := by
  rw [execDecode_of_late hpass ((if_neg hbody).trans ((if_neg (not_not.2 hhdr)).trans (if_pos h))),
    statusWord_authWarn]
  rfl

theorem execDecode_of_dataCsum (hbody : ¬14 + (s.readByte 13).toNat > s.flen.toNat)
    (hhdr : ((s.readByte 14).toNat + (s.readByte 15).toNat + (s.readByte 16).toNat) % 256 = 0)
    (hlen : ¬(s.readByte 13).toNat < 7)
    (h : byteSum (s.readBytes 17 ((s.readByte 13).toNat - 3)) % 256 ≠ 0) :
    execDecode s = .next (s.setStatus (if s.readByte 4 = 0 then 0x07D else 0x27D)) := by
  have hlate : s.decodeLateError = some (.protocol, .dataCsum) := by
    rw [decodeLateError_eq, if_neg hbody, if_neg (not_not.2 hhdr), if_neg hlen, if_pos h]
  rw [execDecode_of_late hpass hlate, statusWord_authWarn]
  rfl

end Steps

theorem decoded_status (s : State) : s.decoded.status = if s.readByte 4 = 0 then 0x000 else 0x200 := by
  rw [State.setStatus_status, statusWord_authWarn]
  rfl

/-! ### The two ways a DECODE can end (R155) -/

theorem code_ne_zero_of_decodeEarlyError {s : State} {k : ErrKind} {d : Detail}
    (h : s.decodeEarlyError = some (k, d)) : k.code ≠ 0 := by
  rcases decodeEarlyError_cases s with ⟨_, e⟩ | ⟨_, e⟩ | ⟨_, _, _, e⟩ | ⟨_, _, _, _, e⟩ | ⟨_, _, _, _, e⟩ <;>
    rw [e] at h <;> cases h <;> decide

theorem code_ne_zero_of_decodeLateError {s : State} {k : ErrKind} {d : Detail}
    (h : s.decodeLateError = some (k, d)) : k.code ≠ 0 := by
  rcases decodeLateError_cases s with ⟨_, e⟩ | ⟨_, _, e⟩ | ⟨_, _, _, e⟩ | ⟨_, _, _, _, e⟩ | ⟨_, _, _, _, e⟩ <;>
    rw [e] at h <;> cases h <;> decide

/-- A DECODE reports an error and writes STATUS alone, or passes every step and commits the message. -/
theorem execDecode_fails_or_commits {s t : State} (h : execDecode s = .next t) :
    (∃ st, statusErr st ≠ 0 ∧ t = s.setStatus st)
    ∨ (s.decodeEarlyError = none ∧ s.decodeLateError = none ∧ t = s.decoded) := by
  cases hearly : s.decodeEarlyError with
  | some kd =>
    rw [execDecode_of_early hearly] at h
    cases h
    exact .inl ⟨_, (statusErr_statusWord ..).trans_ne (code_ne_zero_of_decodeEarlyError hearly), rfl⟩
  | none =>
    cases hlate : s.decodeLateError with
    | some kd =>
      rw [execDecode_of_late hearly hlate] at h
      cases h
      exact .inl ⟨_, (statusErr_statusWord ..).trans_ne (code_ne_zero_of_decodeLateError hlate), rfl⟩
    | none =>
      rw [execDecode_of_ok hearly hlate] at h
      cases h
      exact .inr ⟨rfl, rfl, rfl⟩

end Sys2Proof.Machine

namespace Sys2Proof.Proofs

open Sys2Proof.Machine

/-- Settles O32, step by step along the chain of R156. -/
theorem decodeReportsTheFirstFailingStep : Obligations.DecodeReportsTheFirstFailingStep := by
  intro s
  rw [← byteSum_readBytes]
  refine ite_prop_iff_and.2 ⟨execDecode_of_rangeOob, fun hoob => ?_⟩
  refine ite_prop_iff_and.2 ⟨execDecode_of_tooShort, fun hshort => ?_⟩
  have hlo := Nat.not_lt.1 hshort
  have hhi := Nat.not_lt.1 hoob
  refine ite_prop_iff_and.2 ⟨execDecode_of_badVersion hlo hhi, fun hversion => ?_⟩
  refine ite_prop_iff_and.2 ⟨execDecode_of_badClass hlo hhi (not_not.1 hversion), fun hclass => ?_⟩
  have hpass := (decodeEarlyError_eq_none s).2 ⟨hlo, hhi, not_not.1 hversion, not_not.1 hclass⟩
  refine ite_prop_iff_and.2 ⟨execDecode_of_bodyOverrun hpass, fun hbody => ?_⟩
  refine ite_prop_iff_and.2 ⟨execDecode_of_hdrCsum hpass hbody, fun hhdr => ?_⟩
  refine ite_prop_iff_and.2 ⟨execDecode_of_bodyLenSmall hpass hbody (not_not.1 hhdr), fun hlen => ?_⟩
  refine ite_prop_iff_and.2 ⟨execDecode_of_dataCsum hpass hbody (not_not.1 hhdr) hlen, fun hdata => ?_⟩
  have hcommit := (decodeLateError_eq_none s).2
    ⟨Nat.not_lt.1 hbody, not_not.1 hhdr, Nat.not_lt.1 hlen, not_not.1 hdata⟩
  exact ⟨s.decoded, execDecode_of_ok hpass hcommit, decoded_status s⟩

/-- Settles O36: of the steps' answers, those that a body of at most 6 bytes leaves. -/
theorem twentyBytesNeverDecode : Obligations.TwentyBytesNeverDecode := by
  intro s hlen
  rcases decodeEarlyError_cases s with ⟨hoob, _⟩ | ⟨hshort, _⟩ | ⟨_, _, hversion, e⟩ | ⟨_, _, hversion, hclass, e⟩
    | ⟨_, _, hversion, hclass, hpass⟩
  · omega
  · omega
  · exact ⟨_, execDecode_of_early e, statusErr_statusWord .., fun _ => statusDetail_statusWord ..,
      fun h => absurd h hversion, fun _ h => absurd h hversion, fun _ h => absurd h hversion⟩
  · exact ⟨_, execDecode_of_early e, statusErr_statusWord .., fun h => absurd hversion h,
      fun _ _ => statusDetail_statusWord .., fun _ _ h => absurd h hclass, fun _ _ h => absurd h hclass⟩
  rcases decodeLateError_cases s with ⟨hbody, e⟩ | ⟨hbody, _, e⟩ | ⟨hbody, _, _, e⟩ | ⟨hbody, _, hsmall, _⟩
    | ⟨hbody, _, hsmall, _⟩
  · exact ⟨_, execDecode_of_late hpass e, statusErr_statusWord .., fun h => absurd hversion h,
      fun _ h => absurd hclass h, fun _ _ _ => statusDetail_statusWord .., by omega⟩
  · exact ⟨_, execDecode_of_late hpass e, statusErr_statusWord .., fun h => absurd hversion h,
      fun _ h => absurd hclass h, by omega, fun _ _ _ => .inl (statusDetail_statusWord ..)⟩
  · exact ⟨_, execDecode_of_late hpass e, statusErr_statusWord .., fun h => absurd hversion h,
      fun _ h => absurd hclass h, by omega, fun _ _ _ => .inr (statusDetail_statusWord ..)⟩
  · omega
  · omega

end Sys2Proof.Proofs

/-! ## The commit (R149, R152, R155) -/

namespace Sys2Proof.Machine

theorem hi6_eq_ofNat (b : Byte) : hi6 b = BitVec.ofNat 6 (b.toNat / 4) := by
  rw [← hi6_toNat, BitVec.ofNat_toNat, BitVec.setWidth_eq]

theorem lo2_eq_ofNat (b : Byte) : lo2 b = BitVec.ofNat 2 (b.toNat % 4) := by
  rw [← lo2_toNat, BitVec.ofNat_toNat, BitVec.setWidth_eq]

/-- The six RX registers after a DECODE that succeeds (R149, R152). -/
theorem decoded_rxRegisters (s : State) : s.decoded.rxRegisters =
    (BitVec.ofNat 6 ((s.readByte 15).toNat / 4), s.readByte 19, BitVec.ofNat 6 ((s.readByte 18).toNat / 4),
      BitVec.ofNat 9 ((s.readByte 13).toNat - 7), BitVec.ofNat 2 ((s.readByte 15).toNat % 4),
      BitVec.ofNat 2 ((s.readByte 18).toNat % 4)) := by
  rw [← hi6_eq_ofNat, ← hi6_eq_ofNat, ← lo2_eq_ofNat, ← lo2_eq_ofNat]
  rfl

theorem State.rxRegisters_eq_iff (s t : State) : s.rxRegisters = t.rxRegisters ↔
    s.rxNetfn = t.rxNetfn ∧ s.rxCmd = t.rxCmd ∧ s.rxSeq = t.rxSeq ∧ s.rxPlen = t.rxPlen ∧ s.rxTlun = t.rxTlun
    ∧ s.rxSlun = t.rxSlun := by
  simp only [State.rxRegisters, Prod.mk.injEq]

/-- Beside the buffer space DECODE writes the six RX registers and STATUS only (R155). (The updates are unfolded before
`rfl`, which would otherwise evaluate the payload.) -/
theorem decoded_eq (s : State) : s.decoded =
    { s with
      mem := s.decoded.mem
      rxNetfn := s.decoded.rxNetfn
      rxCmd := s.decoded.rxCmd
      rxSeq := s.decoded.rxSeq
      rxPlen := s.decoded.rxPlen
      rxTlun := s.decoded.rxTlun
      rxSlun := s.decoded.rxSlun
      status := s.decoded.status } := by
  simp only [State.decoded, State.setStatus, State.commitMessage, State.setMessage, State.writeBytes]

theorem decoded_readByte_payload (s : State) {i : Nat} (hi : i < (s.readByte 13).toNat - 7) :
    s.decoded.readByte (0x300 + i) = s.readByte (20 + i) := by
  rw [State.setStatus_readByte, commitMessage_readByte, if_pos (by omega), Nat.add_sub_cancel_left]

theorem decoded_readByte_outside (s : State) {a : Nat}
    (ha : a < 0x300 ∨ 0x300 + ((s.readByte 13).toNat - 7) ≤ a) : s.decoded.readByte a = s.readByte a := by
  rw [State.setStatus_readByte, commitMessage_readByte, if_neg (by omega)]

end Sys2Proof.Machine

namespace Sys2Proof.Proofs

open Sys2Proof.Machine

/-- Settles O33. -/
theorem decodeCommitsTheMessage : Obligations.DecodeCommitsTheMessage := by
  refine ⟨fun s hlo hhi hversion hclass hbody hhdr hlen hdata => ?_, fun s t h herr => ?_⟩
  · rw [← byteSum_readBytes] at hdata
    have hregs := decoded_rxRegisters s
    simp only [State.rxRegisters, Prod.mk.injEq] at hregs
    obtain ⟨hnetfn, hcmd, hseq, hplen, htlun, hslun⟩ := hregs
    refine ⟨s.decoded, execDecode_of_ok ((decodeEarlyError_eq_none s).2 ⟨hlo, hhi, hversion, hclass⟩)
      ((decodeLateError_eq_none s).2 ⟨hbody, hhdr, hlen, hdata⟩), ?_, fun i => decoded_readByte_payload s,
      fun a => decoded_readByte_outside s⟩
    rw [← hnetfn, ← hcmd, ← hseq, ← hplen, ← htlun, ← hslun, ← decoded_status]
    exact decoded_eq s
  · rcases execDecode_fails_or_commits h with ⟨st, _, rfl⟩ | ⟨_, _, rfl⟩
    · rfl
    · exact absurd (statusErr_statusWord ..) herr

end Sys2Proof.Proofs

/-! ## What DECODE depends on (R140, R145, R154) -/

namespace Sys2Proof.Machine

/-- The two states hold the same frame, in the bytes that DECODE checks or hands on: those below FLEN that stand in
the headers or the message body, without offsets 1 and 2 (R145), 4 to 12 (R146). The authentication type at offset 4
decides AUTH_WARN and nothing else, and stands apart. -/
def State.SameFrame (s t : State) : Prop :=
  s.flen = t.flen ∧ ∀ i < s.flen.toNat, (i < 20 ∨ i < 14 + (s.readByte 13).toNat) → i ≠ 1 → i ≠ 2 →
    (i < 4 ∨ 12 < i) → s.readByte i = t.readByte i

section SameFrame

variable {s t : State} (h : s.SameFrame t)

include h

/-- The bytes of the headers, once FLEN has passed its test (R142). -/
theorem State.SameFrame.readByte_header (hlen : 20 ≤ s.flen.toNat) {i : Nat} (hi : i < 20)
    (hchecked : i = 0 ∨ i = 3 ∨ 12 < i) : s.readByte i = t.readByte i :=
  h.2 i (by omega) (.inl hi) (by omega) (by omega) (by omega)

/-- The bytes of the message body, once the length byte has passed its test (R147). -/
theorem State.SameFrame.readByte_body (hbody : 14 + (s.readByte 13).toNat ≤ s.flen.toNat) {i : Nat} (hlo : 13 ≤ i)
    (hi : i < 14 + (s.readByte 13).toNat) : s.readByte i = t.readByte i :=
  h.2 i (by omega) (.inr hi) (by omega) (by omega) (by omega)

theorem State.SameFrame.decodeEarlyError_eq : s.decodeEarlyError = t.decodeEarlyError := by
  have hflen := h.1
  unfold State.decodeEarlyError
  rw [← hflen]
  by_cases hshort : s.flen.toNat < frameMinDecode
  · rw [if_pos hshort, if_pos hshort]
  · have hlen : 20 ≤ s.flen.toNat := Nat.not_lt.1 hshort
    rw [fb_eq, fb_eq, fb_eq, fb_eq, h.readByte_header hlen (by omega) (.inl rfl),
      h.readByte_header hlen (by omega) (.inr (.inl rfl))]

theorem State.SameFrame.decodeLateError_eq (hlen : 20 ≤ s.flen.toNat) : s.decodeLateError = t.decodeLateError := by
  have hflen := h.1
  have h13 := h.readByte_header hlen (i := 13) (by omega) (by omega)
  rw [Machine.decodeLateError_eq, Machine.decodeLateError_eq, ← hflen, ← h13]
  by_cases hbody : 14 + (s.readByte 13).toNat > s.flen.toNat
  · rw [if_pos hbody, if_pos hbody]
  · have hdata : s.readBytes 17 ((s.readByte 13).toNat - 3) = t.readBytes 17 ((s.readByte 13).toNat - 3) :=
      readBytes_congr fun i hi => h.readByte_body (Nat.not_lt.1 hbody) (by omega) (by omega)
    rw [h.readByte_header hlen (i := 14) (by omega) (by omega), h.readByte_header hlen (i := 15) (by omega) (by omega),
      h.readByte_header hlen (i := 16) (by omega) (by omega), hdata]

theorem State.SameFrame.decoded_rxRegisters_eq (hlen : 20 ≤ s.flen.toNat) :
    s.decoded.rxRegisters = t.decoded.rxRegisters := by
  rw [decoded_rxRegisters, decoded_rxRegisters, h.readByte_header hlen (i := 13) (by omega) (by omega),
    h.readByte_header hlen (i := 15) (by omega) (by omega), h.readByte_header hlen (i := 18) (by omega) (by omega),
    h.readByte_header hlen (i := 19) (by omega) (by omega)]

/-- Two states with the same frame and the same authentication type answer with the same STATUS. -/
theorem State.SameFrame.status_eq (hauth : 20 ≤ s.flen.toNat → s.readByte 4 = t.readByte 4) {s' t' : State}
    (hs : execDecode s = .next s') (ht : execDecode t = .next t') : s'.status = t'.status := by
  have hearly := h.decodeEarlyError_eq
  cases he : t.decodeEarlyError with
  | some kd =>
    rw [execDecode_of_early (hearly.trans he)] at hs
    rw [execDecode_of_early he] at ht
    cases hs
    cases ht
    rfl
  | none =>
    obtain ⟨hlen, _⟩ := (decodeEarlyError_eq_none s).1 (hearly.trans he)
    have hwarn : s.authWarn = t.authWarn := by rw [authWarn_eq, authWarn_eq, hauth hlen]
    have hlate := h.decodeLateError_eq hlen
    cases hl : t.decodeLateError with
    | some kd =>
      rw [execDecode_of_late (hearly.trans he) (hlate.trans hl), hwarn] at hs
      rw [execDecode_of_late he hl] at ht
      cases hs
      cases ht
      rfl
    | none =>
      rw [execDecode_of_ok (hearly.trans he) (hlate.trans hl), hwarn] at hs
      rw [execDecode_of_ok he hl] at ht
      cases hs
      cases ht
      rfl

end SameFrame

end Sys2Proof.Machine

namespace Sys2Proof.Proofs

open Sys2Proof.Machine

/-- Settles O34: the answer depends on the frame, and where no error is reported both states committed a message, of
the same registers and the same payload. -/
theorem decodeReadsOnlyTheFrame : Obligations.DecodeReadsOnlyTheFrame := by
  intro s t s' t' hflen hbytes hs ht
  have hsame : s.SameFrame t :=
    ⟨hflen, fun i hi hpart h1 h2 hrest => hbytes i hi hpart h1 h2 (hrest.imp_left fun h => by omega)⟩
  have hstatus := hsame.status_eq (fun hlen => hbytes 4 (by omega) (by omega) (by omega) (by omega) (by omega)) hs ht
  refine ⟨hstatus, fun h0 => ?_⟩
  rcases execDecode_fails_or_commits hs with ⟨st, hst, rfl⟩ | ⟨hearly, hlate, rfl⟩
  · exact absurd h0 hst
  rcases execDecode_fails_or_commits ht with ⟨st, hst, rfl⟩ | ⟨_, _, rfl⟩
  · exact absurd ((congrArg statusErr hstatus).symm.trans h0) hst
  obtain ⟨hlen, _⟩ := (decodeEarlyError_eq_none s).1 hearly
  obtain ⟨hbody, _⟩ := (decodeLateError_eq_none s).1 hlate
  obtain ⟨hnetfn, hcmd, hseq, hplen, htlun, hslun⟩ :=
    (State.rxRegisters_eq_iff ..).1 (hsame.decoded_rxRegisters_eq hlen)
  refine ⟨hnetfn, hcmd, hseq, hplen, htlun, hslun, fun i hi => ?_⟩
  have hit : i < (t.readByte 13).toNat - 7 := by rwa [← decoded_rxPlen_toNat, ← hplen]
  rw [decoded_rxPlen_toNat] at hi
  rw [decoded_readByte_payload s hi, decoded_readByte_payload t hit]
  exact hsame.readByte_body hbody (by omega) (by omega)

end Sys2Proof.Proofs

/-! ## DECODE a second time (R157, item 9) -/

namespace Sys2Proof.Machine

/-- The payload goes to RXP, so DECODE leaves the frame alone. -/
theorem sameFrame_decoded {s : State} (hflen : s.flen.toNat ≤ 512) : s.SameFrame s.decoded :=
  ⟨rfl, fun i hi _ _ _ _ => (decoded_readByte_outside s (by omega)).symm⟩

theorem decoded_mem (s : State) :
    s.decoded.mem = Memory.writeList s.mem 0x300 (s.readBytes 20 ((s.readByte 13).toNat - 7)) := by
  have hlen : 20 + ((s.readByte 13).toNat - 7) - 20 = (s.readByte 13).toNat - 7 := by omega
  rw [State.setStatus_mem, State.commitMessage, State.writeBytes_mem, fbRange_eq, State.rxPayloadLen, State.bodyLen,
    bodyOverhead, fb_eq s 13, hlen]
  rfl

theorem decoded_decoded {s : State} (hlen : 20 ≤ s.flen.toNat) (hflen : s.flen.toNat ≤ 512)
    (hwf : Memory.wf s.mem = true) : s.decoded.decoded = s.decoded := by
  have hbyte {a : Nat} (ha : a < 0x300) : s.decoded.readByte a = s.readByte a := decoded_readByte_outside s (.inl ha)
  have hb := (s.readByte 13).isLt
  have hpayload : s.decoded.readBytes 20 ((s.readByte 13).toNat - 7) = s.readBytes 20 ((s.readByte 13).toNat - 7) :=
    readBytes_congr fun i hi => hbyte (by omega)
  have hmem : s.decoded.decoded.mem = s.decoded.mem := by
    rw [decoded_mem, hbyte (by omega), hpayload, decoded_mem]
    exact Memory.writeList_writeList hwf (by rw [State.readBytes_length]; omega)
  obtain ⟨hnetfn, hcmd, hseq, hplen, htlun, hslun⟩ :=
    (State.rxRegisters_eq_iff ..).1 ((sameFrame_decoded hflen).decoded_rxRegisters_eq hlen)
  have hstatus : s.decoded.decoded.status = s.decoded.status := by
    rw [decoded_status, hbyte (by omega), decoded_status]
  rw [decoded_eq s.decoded, hmem, ← hnetfn, ← hcmd, ← hseq, ← hplen, ← htlun, ← hslun, hstatus]

end Sys2Proof.Machine

namespace Sys2Proof.Proofs

open Sys2Proof.Machine

/-- Settles O35: a failed DECODE left STATUS only, which the second one does not read; a successful one left the frame
as it was. -/
theorem decodeTwiceIsDecodeOnce : Obligations.DecodeTwiceIsDecodeOnce := by
  intro s t hwf h
  rcases execDecode_fails_or_commits h with ⟨st, _, rfl⟩ | ⟨hearly, hlate, rfl⟩
  · exact (operationsOverwriteAllOfStatus .decode s st (.inr (.inr (.inr (.inl rfl))))).trans h
  · obtain ⟨hlen, hflen, _⟩ := (decodeEarlyError_eq_none s).1 hearly
    have hsame := sameFrame_decoded hflen
    exact (execDecode_of_ok (hsame.decodeEarlyError_eq.symm.trans hearly)
      ((hsame.decodeLateError_eq hlen).symm.trans hlate)).trans (congrArg _ (decoded_decoded hlen hflen hwf))

end Sys2Proof.Proofs

/-! ## A frame of ENCODE, decoded as it is (R158) -/

namespace Sys2Proof.Machine

/-! ### The frame passes every step -/

theorem encoded_flen_toNat {s : State} (hn : s.txPlen.toNat ≤ 248) : s.encoded.flen.toNat = 21 + s.txPlen.toNat := by
  rw [State.setStatus_flen, State.setFlen_flen, frameOverhead, BitVec.toNat_ofNat]
  omega

/-- The header checksum's bytes, as DECODE adds them (R148). -/
theorem byteSum_readBytes_header (s : State) : byteSum (s.readBytes 14 3) =
    (s.readByte 14).toNat + (s.readByte 15).toNat + (s.readByte 16).toNat := by
  simp [byteSum_readBytes, List.range_succ, Nat.add_assoc]

theorem encoded_byteSum_header (s : State) : byteSum (s.encoded.readBytes 14 3) % 256 = 0 := by
  rw [byteSum_readBytes_header, encoded_readByte_hdrCsum]
  omega

theorem encoded_byteSum_data (s : State) : byteSum (s.encoded.readBytes 17 (4 + s.txPlen.toNat)) % 256 = 0 := by
  have hlen : (s.txData ++ [csum8 s.txData]).length = 4 + s.txPlen.toNat := by
    rw [List.length_append, txData_length, List.length_singleton]
    omega
  have hbytes : s.encoded.readBytes 17 (4 + s.txPlen.toNat) = s.txData ++ [csum8 s.txData] := by
    rw [← hlen]
    exact readBytes_eq_of_getD fun i hi => encoded_readByte_tail s (hlen ▸ hi)
  rw [hbytes, byteSum_append, byteSum_cons, byteSum_nil, Nat.add_zero]
  exact byteSum_add_csum8 s.txData

theorem encoded_decodeEarlyError {s : State} (hn : s.txPlen.toNat ≤ 248) : s.encoded.decodeEarlyError = none := by
  obtain ⟨hversion, _, _, hclass⟩ := encoded_readByte_rmcp s
  have hflen := encoded_flen_toNat hn
  exact (decodeEarlyError_eq_none _).2 ⟨by omega, by omega, hversion, hclass⟩

theorem encoded_decodeLateError {s : State} (hn : s.txPlen.toNat ≤ 248) : s.encoded.decodeLateError = none := by
  have hflen := encoded_flen_toNat hn
  have hbody := encoded_readByte_bodyLen hn
  have hdata : (s.encoded.readByte 13).toNat - 3 = 4 + s.txPlen.toNat := by omega
  refine (decodeLateError_eq_none _).2 ⟨by omega, ?_, by omega, ?_⟩
  · rw [← byteSum_readBytes_header, encoded_byteSum_header]
  · rw [hdata, encoded_byteSum_data]

/-! ### What the receiver gets -/

/-- `v` has received the message that `s` sends, with the payload cut to `n` bytes (R158, R159). -/
def State.Received (s v : State) (n : Nat) : Prop :=
  v.rxNetfn.toNat = s.txNetfn.toNat ∧ v.rxCmd = s.txCmd ∧ v.rxSeq.toNat = s.txSeq.toNat % 64 ∧ v.rxPlen.toNat = n
  ∧ v.rxTlun = 0 ∧ v.rxSlun = 0 ∧ ∀ i < n, v.readByte (0x300 + i) = s.readByte (0x200 + i)

/-- A frame that has the bytes of ENCODE's behind its length byte delivers the message; the length byte tells how much
of the payload. -/
theorem received_decoded {s u : State} (hnetfn : s.txNetfn.toNat ≤ 63)
    (hbody : (u.readByte 13).toNat - 7 ≤ s.txPlen.toNat)
    (hbytes : ∀ i, 13 < i → u.readByte i = s.encoded.readByte i) :
    s.Received u.decoded ((u.readByte 13).toNat - 7) := by
  have hregs := decoded_rxRegisters u
  obtain ⟨_, hseqByte, hcmdByte⟩ := encoded_readByte_source s
  have hseqNum : (s.encoded.readByte 18).toNat = 4 * (s.txSeq.toNat % 64) := by
    rw [hseqByte, pack62_setWidth_zero_toNat]
  rw [hbytes 15 (by omega), hbytes 18 (by omega), hbytes 19 (by omega), encoded_readByte_netfn hnetfn, hseqNum,
    hcmdByte] at hregs
  simp only [State.rxRegisters, Prod.mk.injEq] at hregs
  obtain ⟨hf, hc, hq, _, ht, hs⟩ := hregs
  refine ⟨?_, hc, ?_, decoded_rxPlen_toNat u, ?_, ?_, fun i hi => ?_⟩
  · rw [hf, BitVec.toNat_ofNat]
    omega
  · rw [hq, BitVec.toNat_ofNat]
    omega
  · rw [ht, Nat.mul_mod_right]
    rfl
  · rw [hs, Nat.mul_mod_right]
    rfl
  · rw [decoded_readByte_payload u hi, hbytes _ (by omega), encoded_readByte_payload s (by omega)]

end Sys2Proof.Machine

namespace Sys2Proof.Proofs

open Sys2Proof.Machine

/-- Settles O37: ENCODE's frame passes every step of DECODE, and neither operation touches TXP. -/
theorem encodeThenDecodeReturnsTheMessage : Obligations.EncodeThenDecodeReturnsTheMessage := by
  intro s hnetfn hn hcap
  have hbody : (s.encoded.readByte 13).toNat - 7 = s.txPlen.toNat := by rw [encoded_readByte_bodyLen hn]; omega
  obtain ⟨hf, hc, hq, hp, ht, hs, hpayload⟩ := received_decoded (u := s.encoded) hnetfn hbody.le fun _ _ => rfl
  rw [hbody] at hp hpayload
  have hstatus : s.encoded.decoded.status = 0x000 := by
    rw [decoded_status, if_pos (encoded_readByte_session s (by omega) (by omega))]
  refine ⟨s.encoded, s.encoded.decoded,
    (exec_wr_op_encodeOpWord .encode s).trans (execEncode_of_ok ((encodeError_eq_none s).2 ⟨hnetfn, hn, hcap⟩)),
    (exec_wr_op_encodeOpWord .decode _).trans
      (execDecode_of_ok (encoded_decodeEarlyError hn) (encoded_decodeLateError hn)),
    hstatus, hf, hc, hq, hp, ht, hs, fun i hi => ⟨hpayload i hi, ?_⟩⟩
  rw [decoded_readByte_outside _ (by omega), encoded_readByte_behind s (by omega)]

end Sys2Proof.Proofs

/-! ## A frame of ENCODE with one byte changed (R159) -/

namespace Sys2Proof.Machine

/-! ### A byte written and the sum of a range -/

theorem readBytes_writeByte_outside (t : State) {a n j : Nat} (b : Byte) (hj : j < a ∨ a + n ≤ j) :
    (t.writeByte j b).readBytes a n = t.readBytes a n :=
  readBytes_congr fun i hi => by rw [State.readByte_writeByte, if_neg (by omega)]

theorem readBytes_writeByte_inside (t : State) (a : Nat) {n k : Nat} (b : Byte) :
    (t.writeByte (a + k) b).readBytes a n = (t.readBytes a n).set k b := by
  apply List.ext_getElem
  · simp
  · intro i _ _
    simp [State.readBytes, State.readByte_writeByte, List.getElem_set, eq_comm]

/-- A range that sums to 0 modulo 256 does so no more after one of its bytes has changed. -/
theorem byteSum_readBytes_writeByte_ne {t : State} {a n j : Nat} {b : Byte} (hlo : a ≤ j) (hhi : j < a + n)
    (hb : b ≠ t.readByte j) (hsum : byteSum (t.readBytes a n) % 256 = 0) :
    byteSum ((t.writeByte j b).readBytes a n) % 256 ≠ 0 := by
  obtain ⟨k, rfl⟩ := Nat.exists_eq_add_of_le hlo
  have hk : k < (t.readBytes a n).length := by rw [State.readBytes_length]; omega
  have hold : (t.readBytes a n)[k] = t.readByte (a + k) := by simp [State.readBytes]
  have hset := byteSum_set_add hk b
  have hnew := b.isLt
  have hprev := (t.readByte (a + k)).isLt
  rw [hold] at hset
  rw [readBytes_writeByte_inside]
  intro hzero
  exact hb (BitVec.eq_of_toNat_eq (by omega))

/-! ### The corrupted frame -/

/-- The state after ENCODE and a write of `b` at offset `j`. -/
abbrev State.corrupted (s : State) (j : Nat) (b : Byte) : State := s.encoded.writeByte j b

section Corrupted

variable {s : State} {j : Nat} {b : Byte}

theorem corrupted_readByte_same (s : State) (j : Nat) (b : Byte) : (s.corrupted j b).readByte j = b := by
  rw [State.readByte_writeByte, if_pos rfl]

theorem corrupted_readByte_ne {i : Nat} (h : i ≠ j) : (s.corrupted j b).readByte i = s.encoded.readByte i := by
  rw [State.readByte_writeByte, if_neg h]

/-- The authentication type is not corrupted at another offset. -/
theorem corrupted_readByte_auth (hj : j ≠ 4) : (s.corrupted j b).readByte 4 = 0 := by
  rw [corrupted_readByte_ne hj.symm, encoded_readByte_session s (by omega) (by omega)]

theorem corrupted_byteSum_header (hj : j < 14 ∨ 16 < j) : ((((s.corrupted j b).readByte 14).toNat
    + ((s.corrupted j b).readByte 15).toNat + ((s.corrupted j b).readByte 16).toNat) % 256) = 0 := by
  rw [← byteSum_readBytes_header, readBytes_writeByte_outside _ _ (by omega), encoded_byteSum_header]

variable (hn : s.txPlen.toNat ≤ 248)

include hn

theorem corrupted_flen_toNat : (s.corrupted j b).flen.toNat = 21 + s.txPlen.toNat := encoded_flen_toNat hn

theorem corrupted_bodyLen (hj : j ≠ 13) : ((s.corrupted j b).readByte 13).toNat = 7 + s.txPlen.toNat := by
  rw [corrupted_readByte_ne hj.symm, encoded_readByte_bodyLen hn]

theorem corrupted_decodeEarlyError (hj0 : j ≠ 0) (hj3 : j ≠ 3) : (s.corrupted j b).decodeEarlyError = none := by
  obtain ⟨hversion, _, _, hclass⟩ := encoded_readByte_rmcp s
  have hflen := corrupted_flen_toNat (b := b) (j := j) hn
  exact (decodeEarlyError_eq_none _).2 ⟨by omega, by omega, (corrupted_readByte_ne hj0.symm).trans hversion,
    (corrupted_readByte_ne hj3.symm).trans hclass⟩

/-! ### What DECODE answers, offset by offset -/

theorem execDecode_corrupted_version (hb : b ≠ s.encoded.readByte 0) :
    execDecode (s.corrupted 0 b) = .next ((s.corrupted 0 b).setStatus 0x04D) := by
  obtain ⟨hversion, _⟩ := encoded_readByte_rmcp s
  have hflen := corrupted_flen_toNat (b := b) (j := 0) hn
  refine execDecode_of_badVersion (by omega) (by omega) ?_
  rwa [corrupted_readByte_same, ← hversion]

theorem execDecode_corrupted_class (hb : b ≠ s.encoded.readByte 3) :
    execDecode (s.corrupted 3 b) = .next ((s.corrupted 3 b).setStatus 0x055) := by
  obtain ⟨hversion, _, _, hclass⟩ := encoded_readByte_rmcp s
  have hflen := corrupted_flen_toNat (b := b) (j := 3) hn
  refine execDecode_of_badClass (by omega) (by omega) ((corrupted_readByte_ne (by omega)).trans hversion) ?_
  rwa [corrupted_readByte_same, ← hclass]

/-- Offsets 1, 2 and 4 to 12 stand under no check: the frame passes as ENCODE's own does. -/
theorem execDecode_corrupted_unchecked (hj0 : j ≠ 0) (hj3 : j ≠ 3) (hj : j ≤ 12) :
    execDecode (s.corrupted j b) = .next (s.corrupted j b).decoded := by
  have hflen := encoded_flen_toNat hn
  have hsame : s.encoded.SameFrame (s.corrupted j b) :=
    ⟨rfl, fun i _ _ _ _ _ => (corrupted_readByte_ne (by omega)).symm⟩
  exact execDecode_of_ok (corrupted_decodeEarlyError hn hj0 hj3)
    ((hsame.decodeLateError_eq (by omega)).symm.trans (encoded_decodeLateError hn))

theorem execDecode_corrupted_header (hlo : 14 ≤ j) (hhi : j ≤ 16) (hb : b ≠ s.encoded.readByte j) :
    execDecode (s.corrupted j b) = .next ((s.corrupted j b).setStatus 0x065) := by
  have hflen := corrupted_flen_toNat (b := b) (j := j) hn
  have hbody := corrupted_bodyLen (b := b) hn (show j ≠ 13 by omega)
  have hsum := byteSum_readBytes_writeByte_ne hlo (show j < 14 + 3 by omega) hb (encoded_byteSum_header s)
  rw [byteSum_readBytes_header] at hsum
  rw [execDecode_of_hdrCsum (corrupted_decodeEarlyError hn (by omega) (by omega)) (by omega) hsum,
    if_pos (corrupted_readByte_auth (by omega))]

theorem execDecode_corrupted_data (hlo : 17 ≤ j) (hhi : j < 21 + s.txPlen.toNat) (hb : b ≠ s.encoded.readByte j) :
    execDecode (s.corrupted j b) = .next ((s.corrupted j b).setStatus 0x07D) := by
  have hflen := corrupted_flen_toNat (b := b) (j := j) hn
  have hbody := corrupted_bodyLen (b := b) hn (show j ≠ 13 by omega)
  have hdata : ((s.corrupted j b).readByte 13).toNat - 3 = 4 + s.txPlen.toNat := by omega
  have hsum := byteSum_readBytes_writeByte_ne hlo (show j < 17 + (4 + s.txPlen.toNat) by omega) hb
    (encoded_byteSum_data s)
  rw [← hdata] at hsum
  rw [execDecode_of_dataCsum (corrupted_decodeEarlyError hn (by omega) (by omega)) (by omega)
    (corrupted_byteSum_header (by omega)) (by omega) hsum, if_pos (corrupted_readByte_auth (by omega))]

/-! ### The length byte -/

theorem execDecode_corrupted_length_overrun (h : b.toNat > 7 + s.txPlen.toNat) :
    execDecode (s.corrupted 13 b) = .next ((s.corrupted 13 b).setStatus 0x05D) := by
  have hflen := corrupted_flen_toNat (b := b) (j := 13) hn
  rw [execDecode_of_bodyOverrun (corrupted_decodeEarlyError hn (by omega) (by omega))
    (by rw [corrupted_readByte_same]; omega), if_pos (corrupted_readByte_auth (by omega))]

variable (hbody : ¬b.toNat > 7 + s.txPlen.toNat)

include hbody

theorem corrupted_length_fits :
    ¬14 + ((s.corrupted 13 b).readByte 13).toNat > (s.corrupted 13 b).flen.toNat := by
  have hflen := corrupted_flen_toNat (b := b) (j := 13) hn
  rw [corrupted_readByte_same]
  omega

theorem execDecode_corrupted_length_small (h : b.toNat < 7) :
    execDecode (s.corrupted 13 b) = .next ((s.corrupted 13 b).setStatus 0x06D) := by
  rw [execDecode_of_bodyLenSmall (corrupted_decodeEarlyError hn (by omega) (by omega))
    (corrupted_length_fits hn hbody) (corrupted_byteSum_header (by omega)) (by rwa [corrupted_readByte_same]),
    if_pos (corrupted_readByte_auth (by omega))]

variable (hlen : ¬b.toNat < 7)

include hlen

theorem execDecode_corrupted_length_sum (h : byteSum (s.encoded.readBytes 17 (b.toNat - 3)) % 256 ≠ 0) :
    execDecode (s.corrupted 13 b) = .next ((s.corrupted 13 b).setStatus 0x07D) := by
  rw [execDecode_of_dataCsum (corrupted_decodeEarlyError hn (by omega) (by omega)) (corrupted_length_fits hn hbody)
    (corrupted_byteSum_header (by omega)) (by rwa [corrupted_readByte_same])
    (by rwa [corrupted_readByte_same, readBytes_writeByte_outside _ _ (by omega)]),
    if_pos (corrupted_readByte_auth (by omega))]

/-- A shorter body whose bytes happen to sum to 0 passes. -/
theorem execDecode_corrupted_length_passes (h : byteSum (s.encoded.readBytes 17 (b.toNat - 3)) % 256 = 0) :
    execDecode (s.corrupted 13 b) = .next (s.corrupted 13 b).decoded := by
  refine execDecode_of_ok (corrupted_decodeEarlyError hn (by omega) (by omega)) ((decodeLateError_eq_none _).2
    ⟨Nat.not_lt.1 (corrupted_length_fits hn hbody), corrupted_byteSum_header (by omega), ?_, ?_⟩)
  · rw [corrupted_readByte_same]
    omega
  · rw [corrupted_readByte_same, readBytes_writeByte_outside _ _ (by omega), h]

end Corrupted

/-- R146, R159: only a changed authentication type makes the frame decode with AUTH_WARN. -/
theorem corrupted_decoded_status {s : State} {j : Nat} {b : Byte} (hb : b ≠ s.encoded.readByte j) :
    (s.corrupted j b).decoded.status = if j = 4 then 0x200 else 0x000 := by
  rw [decoded_status]
  by_cases hj : j = 4
  · subst hj
    rw [encoded_readByte_session s (by omega) (by omega)] at hb
    rw [corrupted_readByte_same, if_neg hb, if_pos rfl]
  · rw [if_pos (corrupted_readByte_auth hj), if_neg hj]

end Sys2Proof.Machine

namespace Sys2Proof.Proofs

open Sys2Proof.Machine

/-- Settles O38, offset by offset along R159's table. -/
theorem oneCorruptedByteOfAFrame : Obligations.OneCorruptedByteOfAFrame := by
  intro s t j b hnetfn hn hcap henc hj hb
  have hencoded := (execEncode_of_ok ((encodeError_eq_none s).2 ⟨hnetfn, hn, hcap⟩)).symm.trans henc
  obtain rfl : s.encoded = t := Host.Outcome.next.inj hencoded
  refine ⟨s.corrupted j.toNat b, exists_and_left.2 ⟨exec_wb_of_le (by omega) b s.encoded, ?_⟩⟩
  generalize j.toNat = j at hj hb
  change ∃ v, execDecode (s.corrupted j b) = .next v ∧ _
  split
  next h0 =>
    subst h0
    exact ⟨_, execDecode_corrupted_version hn hb, rfl⟩
  next h0 =>
  split
  next h3 =>
    subst h3
    exact ⟨_, execDecode_corrupted_class hn hb, rfl⟩
  next h3 =>
  split
  next h12 =>
    have hbody := corrupted_bodyLen (b := b) hn (show j ≠ 13 by omega)
    have hrecv := received_decoded (u := s.corrupted j b) hnetfn (by omega)
      fun i hi => corrupted_readByte_ne (by omega)
    rw [hbody, Nat.add_sub_cancel_left] at hrecv
    exact ⟨_, execDecode_corrupted_unchecked hn h0 h3 h12, corrupted_decoded_status hb, hrecv⟩
  next h12 =>
  split
  next h13 =>
    subst h13
    rw [← byteSum_readBytes]
    split_ifs with hover hsmall hsum
    · exact ⟨_, execDecode_corrupted_length_overrun hn hover, rfl⟩
    · exact ⟨_, execDecode_corrupted_length_small hn hover hsmall, rfl⟩
    · have hrecv := received_decoded (u := s.corrupted 13 b) hnetfn (by rw [corrupted_readByte_same]; omega)
        fun i hi => corrupted_readByte_ne (by omega)
      rw [corrupted_readByte_same] at hrecv
      exact ⟨_, execDecode_corrupted_length_passes hn hover hsmall hsum, corrupted_decoded_status hb, hrecv⟩
    · exact ⟨_, execDecode_corrupted_length_sum hn hover hsmall hsum, rfl⟩
  next h13 =>
  split
  next h16 => exact ⟨_, execDecode_corrupted_header hn (by omega) h16 hb, rfl⟩
  next h16 => exact ⟨_, execDecode_corrupted_data hn (by omega) hj hb, rfl⟩

end Sys2Proof.Proofs

/-! # Proofs about host access (43_host_access.md) -/

/-! ## Every instruction answers a next state (R174, R222) -/

namespace Sys2Proof.Machine

theorem execCsum_completes (s : State) : ∃ t, execCsum s = .next t := by
  cases h : s.csRangeError with
  | none => exact ⟨_, execCsum_of_ok h⟩
  | some d => exact ⟨_, execCsum_of_error h⟩

theorem execVerify_completes (s : State) : ∃ t, execVerify s = .next t := by
  cases h : s.csRangeError with
  | none => exact ⟨_, execVerify_of_ok h⟩
  | some d => exact ⟨_, execVerify_of_error h⟩

theorem execEncode_completes (s : State) : ∃ t, execEncode s = .next t := by
  cases h : s.encodeError with
  | none => exact ⟨_, execEncode_of_ok h⟩
  | some e => exact ⟨_, execEncode_of_error h⟩

theorem execDecode_completes (s : State) : ∃ t, execDecode s = .next t := by
  cases early : s.decodeEarlyError with
  | some e => exact ⟨_, execDecode_of_early early⟩
  | none =>
    cases late : s.decodeLateError with
    | none => exact ⟨_, execDecode_of_ok early late⟩
    | some e => exact ⟨_, execDecode_of_late early late⟩

theorem dispatchOp_completes (w : HostWord) (s : State) : ∃ t, dispatchOp w s = .next t := by
  rcases dispatchOp_cases w s with ⟨_, h⟩ | ⟨_, h⟩ | ⟨_, h⟩ | ⟨_, h⟩ | ⟨_, _, _, _, h⟩ <;> rw [h]
  exacts [execCsum_completes s, execVerify_completes s, execEncode_completes s, execDecode_completes s, ⟨_, rfl⟩]

theorem execWr_completes (r : BitVec 8) (v : HostWord) (s : State) : ∃ t, execWr r v s = .next t := by
  rcases execWr_cases r v s with ⟨_, h⟩ | ⟨_, _, _, _, h⟩ | ⟨_, _, h⟩ <;> rw [h]
  exacts [dispatchOp_completes v s, ⟨_, rfl⟩, ⟨_, rfl⟩]

/-! ## What each host access answers (R170 to R173) -/

theorem exec_rb_of_gt {a : BitVec 12} (ha : ¬a.toNat ≤ 0x3FF) (s : State) :
    exec (.rb a) s = .next (s.setReply (.byte 0)) := if_neg ha

/-- R28: a reserved number is none of the numbers of R10. -/
theorem ne_of_reserved {r k : BitVec 8} (hr : Reg.ofNumber r = none) (hk : k.toNat ≤ 0x11) : r ≠ k := by
  rintro rfl
  exact absurd ((ofNumber_eq_none r).1 hr) (by omega)

/-- R174, R82: what a write to OP starts. -/
theorem exec_wr_op (v : HostWord) (s : State) :
    exec (.wr 0 v) s =
      if v = 1 then exec .csum s else if v = 2 then exec .verify s else if v = 3 then exec .encode s
      else if v = 4 then exec .decode s else .next (s.setStatus 0x009) := by
  change dispatchOp v s = _
  rcases dispatchOp_cases v s with ⟨rfl, h⟩ | ⟨rfl, h⟩ | ⟨rfl, h⟩ | ⟨rfl, h⟩ | ⟨h1, h2, h3, h4, h⟩
  · exact h
  · exact h
  · exact h
  · exact h
  · rw [if_neg h1, if_neg h2, if_neg h3, if_neg h4]
    exact h

end Sys2Proof.Machine

namespace Sys2Proof.Proofs

open Sys2Proof.Machine

/-- Settles O44. -/
theorem everyInstructionAlwaysCompletes : Obligations.EveryInstructionAlwaysCompletes := by
  intro i s
  cases i with
  | csum => exact execCsum_completes s
  | verify => exact execVerify_completes s
  | encode => exact execEncode_completes s
  | decode => exact execDecode_completes s
  | rd r =>
    cases h : Reg.ofNumber r with
    | some reg => exact ⟨_, exec_rd_of_some h s⟩
    | none => exact ⟨_, exec_rd_of_none h s⟩
  | wr r v => exact execWr_completes r v s
  | rb a =>
    by_cases ha : a.toNat ≤ 0x3FF
    exacts [⟨_, exec_rb_of_le ha s⟩, ⟨_, exec_rb_of_gt ha s⟩]
  | wb a b =>
    by_cases ha : a.toNat ≤ 0x3FF
    exacts [⟨_, exec_wb_of_le ha b s⟩, ⟨_, exec_wb_of_gt ha b s⟩]

/-- Settles O15: OP dispatches, every other register by its own number, and a reserved number is none of them. -/
theorem registerWriteStoresTheLowBitsOrDispatches : Obligations.RegisterWriteStoresTheLowBitsOrDispatches := by
  intro r v s
  rcases execWr_cases r v s with ⟨rfl, _⟩ | ⟨_, reg, hop, hreg, hwr⟩ | ⟨_, hnone, hwr⟩
  · exact exec_wr_op v s
  · refine Eq.trans hwr ?_
    obtain rfl := Reg.eq_number_of_ofNumber hreg
    simp only [BitVec.ofNat_toNat]
    cases reg with
    | op => exact absurd rfl hop
    | _ => rfl
  · refine Eq.trans hwr ?_
    simp (disch := decide) only [ne_of_reserved hnone, if_false]

/-- Settles O19. -/
theorem bufferWriteStoresOneByte : Obligations.BufferWriteStoresOneByte := by
  intro a b s
  split
  next ha =>
    refine ⟨_, exec_wb_of_le ha b s, rfl, ?_, fun x hx => ?_⟩
    · rw [State.readByte_writeByte, if_pos rfl]
    · rw [State.readByte_writeByte, if_neg hx]
  next ha => exact exec_wb_of_gt ha b s

/-- Settles O14: a number names a register, whose value is zero-extended, or is reserved. -/
theorem registerReadReturnsTheZeroExtendedValue : Obligations.RegisterReadReturnsTheZeroExtendedValue := by
  intro r s
  cases hreg : Reg.ofNumber r with
  | some reg =>
    rw [exec_rd_of_some hreg]
    obtain rfl := Reg.eq_number_of_ofNumber hreg
    cases reg <;> simp [Reg.number, State.readReg, State.setReply]
  | none =>
    simp (disch := decide) only [ne_of_reserved hreg, if_false]
    exact exec_rd_of_none hreg s

/-- Settles O18. -/
theorem bufferReadReturnsTheByte : Obligations.BufferReadReturnsTheByte := by
  intro a s
  split
  next ha => exact exec_rb_of_le ha s
  next ha => exact exec_rb_of_gt ha s

end Sys2Proof.Proofs

/-! # Proofs about errors, STATUS and the idle block (60_exceptions.md, 70_reset_and_hazards.md) -/

/-! ## STATUS after an operation, and what an error leaves alone (R191, R194, R196) -/

namespace Sys2Proof.Machine

/-- Whatever STATUS held, an operation or a reserved word leaves a value of R194: it answers as from STATUS 0, which is
one of them. -/
theorem legalStatus_of_isOperation {i : Instr} {s t : State} (hi : i.IsOperation) (h : exec i s = .next t) :
    legalStatus t.status :=
  legalStatus_of_exec ((Proofs.operationsOverwriteAllOfStatus i s 0 hi).trans h) (show (0 : BitVec 10) ∈ _ by decide)

/-- The table of R194, read as a function of DETAIL (R151, R191, R192). -/
theorem statusErr_of_statusDetail : ∀ st ∈ legalStatusValues,
    (statusDetail st).toNat ≤ 15 ∧ (statusDetail st).toNat ≠ 14
    ∧ (statusErr st).toNat =
        if (statusDetail st).toNat = 0 then 0
        else if (statusDetail st).toNat ≤ 6 then 1
        else if (statusDetail st).toNat = 7 then 2
        else 5 := by
  decide

/-- VOK stands beside no error (R29). -/
theorem statusVok_of_statusErr_ne_zero : ∀ st ∈ legalStatusValues, statusErr st ≠ 0 → statusVok st = false := by
  decide

/-- Of an operation's effects, those that write more than STATUS are results and report ERR = 0. -/
theorem Effect.eq_setStatus_of_statusErr_ne_zero {i : Instr} {s t : State} (h : Effect s i t) (hi : i.IsOperation)
    (herr : statusErr t.status ≠ 0) : t = s.setStatus t.status := by
  cases h with
  | status => rfl
  | checksum | frame => exact absurd rfl herr
  | message => exact absurd (statusErr_statusWord ..) herr
  | reply _ hread => exact absurd hi (not_isOperation_of_read hread)
  | register _ _ _ hr => exact absurd (by simpa [Instr.IsOperation] using hi) hr
  | byte => simp [Instr.IsOperation] at hi
  | nothing => rfl

end Sys2Proof.Machine

namespace Sys2Proof.Proofs

open Sys2Proof.Machine

/-- Settles O39: the frame by the operation's effect, VOK by the values of R194, AUTH_WARN by what the flags say. -/
theorem anErrorChangesStatusOnly : Obligations.AnErrorChangesStatusOnly := by
  intro i s t hi h herr
  have hop : i.IsOperation := hi.imp_right (Or.imp_right (Or.imp_right .inl))
  refine ⟨(effect_of_exec h).eq_setStatus_of_statusErr_ne_zero hop herr,
    statusVok_of_statusErr_ne_zero _ (legalStatus_of_isOperation hop h) herr, fun hwarn => ?_⟩
  obtain ⟨hdecode, _, _, _, _, hauth⟩ := (flagsSayWhatTheLastOperationFound i s t hi h).2.1 hwarn
  exact ⟨hdecode, hauth⟩

/-- Settles O40. -/
theorem detailDeterminesErr : Obligations.DetailDeterminesErr := by
  intro i s t hi h
  exact statusErr_of_statusDetail _ (legalStatus_of_isOperation hi h)

end Sys2Proof.Proofs

/-! ## A step without a host action (R205) -/

namespace Sys2Proof.Machine

theorem step_of_idle {s : State} (hs : s.script = []) : step s = .next s := by
  simp [step, State.takeEvent, hs]

theorem step_of_not_action {s : State} {w : ActionWord} {rest : List HostEvent} {why : DecodeError}
    (hs : s.script = .action w :: rest) (hd : decodeAction w = .error why) :
    step s = .refused (.notAnAction why) := by
  simp [step, State.takeEvent, hs, runAction, hd]

end Sys2Proof.Machine

namespace Sys2Proof.Proofs

open Sys2Proof.Machine

/-- Settles O13. -/
theorem stepIdlesOrRefusesWithoutAnAction : Obligations.StepIdlesOrRefusesWithoutAnAction :=
  ⟨fun _ hs => step_of_idle hs, fun _ _ _ _ hs hd => step_of_not_action hs hd⟩

end Sys2Proof.Proofs

/-! ## The external reset, and the operations right after reset (R220, R221) -/

namespace Sys2Proof.Machine

/-- A step on the external reset (R220): the block starts over, the script moves past the event. -/
theorem step_of_reset {s : State} {rest : List HostEvent} (hs : s.script = .reset :: rest) :
    step s = .next ({ s with script := rest } : State).applyReset := by
  simp [step, State.takeEvent, hs]

/-- After the external reset no byte of the buffers is listed as written (R47). -/
theorem applyReset_readByte (s : State) (a : Nat) : s.applyReset.readByte a = Config.bufReset (s.resets + 1) a :=
  readByte_of_unlisted (s := s.applyReset) fun _ hc => absurd hc List.not_mem_nil

/-- Right after reset FCAP is 0, too small for any frame (R124): ENCODE's other checks, on TX_NETFN and TX_PLEN, pass. -/
theorem reset_encodeError : State.reset.encodeError = some (.capacity, .frameCap) := by decide

end Sys2Proof.Machine

namespace Sys2Proof.Proofs

open Sys2Proof.Machine

/-- Settles O9. -/
theorem externalResetStartsOver : Obligations.ExternalResetStartsOver := by
  intro s rest hs
  refine ⟨step_of_reset hs, fun t ht a => ?_⟩
  rw [step_of_reset hs] at ht
  cases ht
  exact applyReset_readByte _ a

/-- Settles O10: CS_LEN, FCAP and FLEN are 0, so the range is empty, the frame does not fit, the datagram is too short. -/
theorem operationsRightAfterResetFailCleanly : Obligations.OperationsRightAfterResetFailCleanly := by
  have hrange : State.reset.csRangeError = some .emptyRange := csRangeError_of_empty rfl
  have hshort : State.reset.flen.toNat < 20 := by decide
  exact ⟨execCsum_of_error hrange, execVerify_of_error hrange, execEncode_of_error reset_encodeError,
    execDecode_of_tooShort hshort⟩

end Sys2Proof.Proofs
